-- ==== Sys2Proof/Word.lean ====
section
/-! DEFINITION. The plain types of the model: bytes, 32-bit words, times, and the numbers of the part's
contexts, entries and cells. -/

namespace Sys2Proof

/-- One byte of a frame's data field. Its bits are numbered 7 (most significant) to 0 (00_scope.md section 6). -/
abbrev Byte := BitVec 8

/-- A 32-bit value the manual handles as bits: image tags, check values, accumulators. -/
abbrev Word := BitVec 32

/-- A time, in microseconds from an origin of the model's own (log 3). -/
abbrev Time := Nat

/-- Flow 0 to flow 15. -/
abbrev FlowId := Fin 16

/-- Target 0 to target 31. -/
abbrev TargetId := Fin 32

/-- Image 0 to image 15. -/
abbrev ImageId := Fin 16

/-- Region slot 0 to 7 of an image. -/
abbrev SlotId := Fin 8

/-- Route 0 to route 95. -/
abbrev RouteId := Fin 96

/-- Cell 0 to cell 511. -/
abbrev CellId := Fin 512

end Sys2Proof
end

