-- ==== Sys2Proof/Syntax.lean ====
section
/-! DEFINITION. The commands: one constructor for each row of spec/opcode_table.json, with the frame and port
types they carry. -/

namespace Sys2Proof

/-- The format of a CAN identifier (R20). -/
inductive IdFormat where
  | base
  | extended
  deriving DecidableEq, Repr

/-- A CAN identifier: two are equal when both format and value are (R20). -/
structure CanId where
  format : IdFormat
  value : BitVec 29
  deriving DecidableEq, Repr

/-- One CAN FD frame, or a classical CAN frame when `fd` is false (00_scope.md section 5, "Frame"). The data
length is the length of `data`. -/
structure CanFrame where
  id : CanId
  fd : Bool
  /-- Sent with bit-rate switching. -/
  brs : Bool
  data : List Byte
  deriving DecidableEq, Repr

/-- The five ports (00_scope.md section 6, "Ports and labels"). -/
inductive Port where
  | trunk
  | seg0
  | seg1
  | seg2
  | seg3
  deriving DecidableEq, Repr

/-- The commands, in the table's order. Each carries first the time `t` at which its event is taken ("Now",
00_scope.md section 6; log 3). A management request's own operands are the bytes of the request frame at the
head of the management request queue (R14, R160; log 1). -/
inductive Instr where
  | deviceReset (t : Time)
  /-- RESET_RELEASE: `straps` is the level of ID2, ID1, ID0 with ID2 as the most significant bit (R158). -/
  | resetRelease (t : Time) (straps : BitVec 3)
  | frameArrival (t : Time) (port : Port) (frame : CanFrame)
  | receptionError (t : Time) (port : Port)
  | transmissionAttemptStart (t : Time) (port : Port)
  | transmissionSuccess (t : Time) (port : Port)
  | arbitrationLost (t : Time) (port : Port)
  | transmissionError (t : Time) (port : Port)
  | recoveryComplete (t : Time) (port : Port)
  | replyEnqueue (t : Time)
  | alertMove (t : Time)
  | requestWithoutTag (t : Time)
  | unknown (t : Time)
  | status (t : Time)
  | faultsClear (t : Time)
  | portSet (t : Time)
  | portRestart (t : Time)
  | routeWrite (t : Time)
  | routeRead (t : Time)
  | routingEnable (t : Time)
  | targetWrite (t : Time)
  | targetRead (t : Time)
  | imageBegin (t : Time)
  | imageRegion (t : Time)
  | imageChecks (t : Time)
  | imageEnd (t : Time)
  | imageDiscard (t : Time)
  | imageQuery (t : Time)
  | windowOpen (t : Time)
  | windowRenew (t : Time)
  | windowClose (t : Time)
  | flowBind (t : Time)
  | flowRelease (t : Time)
  | flowHold (t : Time)
  | flowResume (t : Time)
  | flowQuery (t : Time)
  | supplySet (t : Time)
  | supplyQuery (t : Time)
  | pendingDeadlineExpiry (t : Time) (flow : FlowId)
  | gapDeadlineExpiry (t : Time) (flow : FlowId)
  | windowExpiry (t : Time)
  | flowSliceComplete (t : Time)
  | imageSliceComplete (t : Time)
  | sampleTime (t : Time)
  /-- CONVERSION_COMPLETE: `raw` is the raw reading, 0 to 32767 mV (R129). -/
  | conversionComplete (t : Time) (raw : Nat)
  deriving DecidableEq, Repr

end Sys2Proof
end

