-- ==== Sys2Proof/Config.lean ====
section
/-! DEFINITION. The free values: what the manual leaves open. Each is a constant without a body, applied to
a counter of State, so that nothing can be proved about a value of it. -/

namespace Sys2Proof.Config

/-- A byte the manual gives no value: a base or size code byte that TARGET READ reports for an absent guard
window (R19, R23). DESIGN CHOICE, safe (log 10). -/
opaque freeByte : Nat → Byte

/-- Which of several actions that are due together the part takes first, and which of an offered frame, a reply and an
alert joins TRUNK first, where the manual says that either may be taken first (R162 and the like). DESIGN CHOICE, safe
(log 2, log 28). -/
opaque firstTaken : Nat → Nat

end Sys2Proof.Config
end

