-- ==== Sys2Proof/Machine/Records.lean ====
section
/-! DEFINITION. The records of each block of the part: plain data, with the manual's names. -/

namespace Sys2Proof.Machine

/-! ## Frame classifier and route table (C8) -/

/-- Part mode (R141). -/
inductive PartMode where
  | passthrough
  | routing
  deriving DecidableEq, Repr

/-- Default action (R141). -/
inductive DefaultAction where
  | flood
  | drop
  deriving DecidableEq, Repr

/-- State of a route entry (R146). -/
inductive RouteState where
  | empty
  | valid
  | damaged
  deriving DecidableEq, Repr

/-- Class of a route entry (R146). -/
inductive RouteClass where
  | plain
  | blocked
  deriving DecidableEq, Repr

/-- A set of ports in the coding of R18: bit 0 TRUNK, bit 1 SEG0, bit 2 SEG1, bit 3 SEG2, bit 4 SEG3. -/
abbrev PortSet := BitVec 5

/-- One route entry (R146). `parityBad` marks stored contents whose parity is wrong (log 8). -/
structure RouteEntry where
  state : RouteState
  format : IdFormat
  matchValue : BitVec 29
  matchMask : BitVec 29
  ingress : PortSet
  egress : PortSet
  cls : RouteClass
  parityBad : Bool
  deriving DecidableEq, Repr

/-! ## Target table (C2) -/

/-- State of a target entry (R19). -/
inductive EntryState where
  | empty
  | valid
  deriving DecidableEq, Repr

/-- The four segments. -/
inductive Segment where
  | seg0
  | seg1
  | seg2
  | seg3
  deriving DecidableEq, Repr

/-- Tracker state (R19, C4 section 4.2). -/
inductive Tracker where
  | none
  | passing
  | refused
  deriving DecidableEq, Repr

/-- A window: a base address of 32 bits and a size code 0 to 15 (R21). -/
structure AddrWindow where
  base : Nat
  sizeCode : Nat
  deriving DecidableEq, Repr

/-- One target entry (R19). The bound flow is derived. `parityBad` covers the stored fields, not the tracker
(C2 section 2.1.4, log 8). -/
structure TargetEntry where
  state : EntryState
  segment : Segment
  request : CanId
  response : CanId
  guard0 : Option AddrWindow
  guard1 : Option AddrWindow
  parityBad : Bool
  tracker : Tracker
  deriving DecidableEq, Repr

/-! ## Manifest memory (C2) -/

/-- State of an image (R25). -/
inductive ImageState where
  | empty
  | loading
  | checking
  | ready
  | defective
  deriving DecidableEq, Repr

/-- A loaded region slot (R26). -/
structure Region where
  base : Nat
  sizeCode : Nat
  length : Nat
  blockLength : Nat
  erase : Bool
  deriving DecidableEq, Repr

/-- A region slot, absent or loaded, with the mark of its parity (R26, log 8). -/
structure Slot where
  region : Option Region
  parityBad : Bool
  deriving DecidableEq, Repr

/-- A contiguous run of check list entries (R27). -/
structure Extent where
  first : Nat
  count : Nat
  deriving DecidableEq, Repr

/-- The fields of an image record that carry parity (R25: all but the self-check progress and accumulator). -/
inductive ImageField where
  | state
  | tag
  | regionCount
  | extent
  | written
  | expected
  | level
  | refCount
  deriving DecidableEq, Repr

/-- One image record (R25). `bad` lists the fields whose parity is wrong (log 8). -/
structure ImageRecord where
  state : ImageState
  tag : Word
  regionCount : Option Nat
  slots : Vector Slot 8
  extent : Option Extent
  /-- Written map: one mark per entry of the extent. -/
  written : Option (List Bool)
  expected : Option Word
  level : Option Nat
  refCount : Nat
  progress : Option Nat
  acc : Option Word
  bad : List ImageField
  deriving DecidableEq, Repr

/-- One entry of the check list memory: a check value with the mark of its parity (R27). -/
structure CheckEntry where
  value : Word
  parityBad : Bool
  deriving DecidableEq, Repr

/-- The check list memory: (index, entry) pairs, indexes strictly rising, no entry equal to what an unlisted
index reads as (R27, log 7). -/
abbrev CheckMem := List (Nat × CheckEntry)

/-- One member of the extent list, with the image it belongs to (R27). -/
structure ExtentEntry where
  image : ImageId
  first : Nat
  count : Nat
  deriving DecidableEq, Repr

/-! ## Flow contexts (C3, C4) -/

/-- Flow state (R38, R40). -/
inductive FlowState where
  | free
  | idle
  | erasing
  | opening
  | loading
  | closing
  | abandoning
  | activating
  | done
  | failed
  deriving DecidableEq, Repr

/-- Condition of a FAILED flow (R63). -/
inductive Condition where
  | windowLapsed
  | windowClosed
  | outOfWindow
  | guarded
  | retryLimit
  | noResponse
  | tableFault
  deriving DecidableEq, Repr

/-- Region state (R44). -/
inductive RegionState where
  | blank
  | erased
  | opened
  | verified
  | short
  deriving DecidableEq, Repr

/-- Verdict of a BLOCK parcel (R13). -/
inductive Verdict where
  | matched
  | mismatch
  | sequence
  | overrun
  | underrun
  | broken
  | tableFault
  deriving DecidableEq, Repr

/-- The six update requests (R8). -/
inductive UpdateCode where
  | erase
  | open_
  | block
  | close
  | activate
  | abandon
  deriving DecidableEq, Repr

/-- The reasons of a refusal parcel (R12). -/
inductive Reason where
  | windowClosed
  | unbound
  | outOfWindow
  | guarded
  | supply
  | held
  | overlap
  | notVerified
  | order
  | ended
  | layout
  | checkFailed
  | broken
  deriving DecidableEq, Repr

/-- The four kinds of parcel frame (R2). -/
inductive FrameKind where
  | whole
  | opener
  | carrier
  | pace
  deriving DecidableEq, Repr

/-- A target response that names a class (R10): positive with its code and byte 1, refusal with the code refused
and the reason, wait with the code waited on. -/
inductive Response where
  | positive (code : Byte) (echo : Byte)
  | refusal (code : Byte) (reason : Byte)
  | wait (code : Byte)
  deriving DecidableEq, Repr

/-- The parameters of a bound flow (R41), decoded: times in milliseconds, retry limit 1 to 16. -/
structure FlowParams where
  level : Nat
  retryLimit : Nat
  progressInterval : Nat
  responseTime : Nat
  waitExtension : Nat
  gapLimit : Nat
  cellQuota : Nat
  deriving DecidableEq, Repr

/-- What a flow holds while it is not FREE: target, image, parameters and region states (R38). -/
structure Binding where
  target : TargetId
  image : ImageId
  params : FlowParams
  regions : List RegionState
  deriving DecidableEq, Repr

/-- The open region (R38, R45). -/
structure OpenRegion where
  region : Nat
  length : Nat
  blockLength : Nat
  checkCount : Nat
  deriving DecidableEq, Repr

/-- The request a flow has forwarded, with the fields R47 gives it. -/
inductive PendingKind where
  | erase (region : Nat)
  | open_ (region : OpenRegion)
  | block (seq : Byte) (dataLength : Nat) (isRepeat : Bool)
  | close (region : Nat)
  | abandon (region : Nat)
  | activate
  deriving DecidableEq, Repr

/-- A pending request with its deadline (R47). -/
structure PendingReq where
  kind : PendingKind
  deadline : Time
  deriving DecidableEq, Repr

/-- The parcel record of an INSPECTED BLOCK (R72). Its request code is 0x63 (R85). -/
structure Inspected where
  declared : Nat
  seen : Nat
  nextRoll : Option (BitVec 6)
  gapDeadline : Option Time
  seq : Byte
  dataLength : Nat
  isRepeat : Bool
  checkIndex : Nat
  deriving DecidableEq, Repr

/-- The two requests that are gated (R80). The region an ERASE names is kept for R94 (log 13). -/
inductive Gated where
  | erase (region : Nat)
  | activate
  deriving DecidableEq, Repr

/-- The parcel in transit of a flow (R72). -/
inductive ParcelRecord where
  | inspected (p : Inspected)
  | gated (g : Gated)
  | passing (declared : Nat) (seen : Nat)
  | refused
  deriving DecidableEq, Repr

/-- The set of hold causes (R60). -/
structure HoldCauses where
  master : Bool
  supply : Bool
  deriving DecidableEq, Repr

/-- The late response: response code, and the reason when it is a refusal (R57). -/
structure LateResponse where
  code : Byte
  reason : Option Byte
  deriving DecidableEq, Repr

/-- One flow context (R38). -/
structure FlowCtx where
  state : FlowState
  binding : Option Binding
  openRegion : Option OpenRegion
  expectedSeq : Byte
  lastAccepted : Option Byte
  acceptedBlocks : Nat
  acceptedBytes : Nat
  pendingReq : Option PendingReq
  record : Option ParcelRecord
  held : Option CellId
  fifo : List CellId
  acc : Word
  holds : HoldCauses
  failures : Nat
  lastVerdict : Option Verdict
  lastRefusal : Option Byte
  condition : Option Condition
  activationUnknown : Bool
  late : Option LateResponse
  sinceProgress : Nat
  deriving DecidableEq, Repr

/-! ## Cell pool and check engine (C5) -/

/-- The fold span of a cell: first content byte and number of bytes (R98). -/
structure FoldSpan where
  first : Nat
  count : Nat
  deriving DecidableEq, Repr

/-- Frame data length and bit-rate switching of a frame that may be forwarded whole (R98). -/
structure HeldFrameInfo where
  dataLength : Nat
  brs : Bool
  deriving DecidableEq, Repr

/-- What is written into a cell (R98). The content length is the length of `bytes`. -/
structure CellContent where
  bytes : List Byte
  span : Option FoldSpan
  frame : Option HeldFrameInfo
  deriving DecidableEq, Repr

/-- One cell of the pool, with its free map bit and the mark of its parity (R98, log 8). -/
structure Cell where
  inUse : Bool
  content : CellContent
  parityBad : Bool
  deriving DecidableEq, Repr

/-- The five fault flags (R170). -/
inductive FaultFlag where
  | route
  | target
  | image
  | checklist
  | cell
  deriving DecidableEq, Repr

/-- What a slice fixed at its beginning (R106, log 14): a flow's head cell as it was read, or an image's part of
the serialization, the number of check entries in it and the parity error its reads found. -/
inductive SliceWork where
  | flow (f : FlowId) (cell : CellId) (read : Cell)
  | image (i : ImageId) (bytes : List Byte) (entries : Nat) (error : Option FaultFlag)
  deriving DecidableEq, Repr

/-- The current slice of a BUSY engine (R106). -/
structure Slice where
  work : SliceWork
  abandoned : Bool
  deriving DecidableEq, Repr

/-! ## Update window (C6) -/

/-- Window state (R115). -/
inductive WindowState where
  | closed
  | opened
  deriving DecidableEq, Repr

/-- Renewal step (R115). -/
inductive RenewalStep where
  | none
  | armed
  deriving DecidableEq, Repr

/-- The window record (R115). The period is in milliseconds. -/
structure Window where
  state : WindowState
  period : Option Nat
  expiry : Option Time
  renewal : RenewalStep
  deriving DecidableEq, Repr

/-! ## Supply monitor (C7) -/

/-- Supply state (R127). -/
inductive SupplyState where
  | normal
  | low
  | critical
  deriving DecidableEq, Repr

/-- The converter (R127, R128): CONVERTING holds the time its conversion completes and the served gate
requests, ascending. -/
inductive Converter where
  | idle
  | converting (completes : Time) (served : List FlowId)
  deriving DecidableEq, Repr

/-- A candidate state and its count (R132). -/
structure CandidateRun where
  candidate : SupplyState
  count : Nat
  deriving DecidableEq, Repr

/-- The six settings that SUPPLY SET writes (R127, R139). -/
structure SupplySettings where
  period : Nat
  offset : Int
  lowLimit : Nat
  criticalLimit : Nat
  restoreLimit : Nat
  depth : Nat
  deriving DecidableEq, Repr

/-- The supply monitor (R127). The waiting gate requests are a set, held ascending. -/
structure Supply where
  settings : SupplySettings
  state : SupplyState
  run : Option CandidateRun
  lastSample : Option Nat
  converter : Converter
  periodicDue : Bool
  nextSample : Time
  waiting : List FlowId
  deriving DecidableEq, Repr

/-! ## Port units (C8) -/

/-- Nominal bit rate (R150). -/
inductive NominalRate where
  | k125
  | k250
  | k500
  | k1000
  deriving DecidableEq, Repr

/-- Data bit rate (R150). -/
inductive DataRate where
  | m1
  | m2
  | m4
  | m5
  | m8
  deriving DecidableEq, Repr

/-- Confinement state (R152). -/
inductive Confinement where
  | active
  | passive
  | off
  | recovering
  deriving DecidableEq, Repr

/-- The three kinds of frame the part generates (R17). -/
inductive GeneratedKind where
  | refusal
  | reply
  | alert
  deriving DecidableEq, Repr

/-- Class of a queued frame (R155). -/
inductive QueueClass where
  | plain
  | dialogue
  | generated (k : GeneratedKind)
  deriving DecidableEq, Repr

/-- A frame in a transmit queue. `sending` marks the frame of the attempt in progress (R151, log 19). -/
structure QueuedFrame where
  frame : CanFrame
  cls : QueueClass
  sending : Bool
  deriving DecidableEq, Repr

/-- A frame that an event has offered to TRUNK. `ahead` says that a rule sends it before the head of the alert queue is
queued (R59, R78, R134). -/
structure Offer where
  cls : QueueClass
  frame : CanFrame
  ahead : Bool
  deriving DecidableEq, Repr

/-- One port unit (R150 to R155). -/
structure PortUnit where
  nominal : NominalRate
  dataRate : DataRate
  autoRecovery : Bool
  txErrors : Nat
  rxErrors : Nat
  conf : Confinement
  recessiveRuns : Nat
  queue : List QueuedFrame
  deriving DecidableEq, Repr

/-- The five port units. -/
structure Ports where
  trunk : PortUnit
  seg0 : PortUnit
  seg1 : PortUnit
  seg2 : PortUnit
  seg3 : PortUnit
  deriving DecidableEq, Repr

/-! ## Responder, alerts, fault flags (C9) -/

/-- The management request queue, oldest first, and the reply slot. The responder is READY when the slot is
empty and WAITING when it holds a reply (R159, R160). -/
structure Responder where
  queue : List CanFrame
  slot : Option CanFrame
  deriving DecidableEq, Repr

/-- The five fault flags (R170). -/
structure FaultFlags where
  route : Bool
  target : Bool
  image : Bool
  checklist : Bool
  cell : Bool
  deriving DecidableEq, Repr

/-- The management reasons (R15). -/
inductive MgmtReason where
  | badValue
  | order
  | busy
  | noRoom
  | duplicate
  | incomplete
  | overlap
  | unknown
  deriving DecidableEq, Repr

/-- What a management request is answered with: DONE with its result fields, or a reason (R15). -/
inductive Answer where
  | done (fields : List Byte)
  | refused (r : MgmtReason)
  deriving DecidableEq, Repr

/-- The 25 management requests (R163). -/
inductive Request where
  | status
  | faultsClear
  | portSet
  | portRestart
  | routeWrite
  | routeRead
  | routingEnable
  | targetWrite
  | targetRead
  | imageBegin
  | imageRegion
  | imageChecks
  | imageEnd
  | imageDiscard
  | imageQuery
  | windowOpen
  | windowRenew
  | windowClose
  | flowBind
  | flowRelease
  | flowHold
  | flowResume
  | flowQuery
  | supplySet
  | supplyQuery
  deriving DecidableEq, Repr

/-- The key of an alert entry (R166). -/
inductive AlertKey where
  | flow (f : FlowId)
  | image (i : ImageId)
  | supply
  | window
  | fault
  deriving DecidableEq, Repr

/-- The fields of a FLOW alert (R67, R18). -/
structure FlowReport where
  target : TargetId
  image : ImageId
  state : FlowState
  condition : Option Condition
  activationUnknown : Bool
  holds : HoldCauses
  lastVerdict : Option Verdict
  lastRefusal : Option Byte
  failures : Nat
  late : Option LateResponse
  deriving DecidableEq, Repr

/-- The fields of a PROGRESS alert (R46, R18). -/
structure ProgressReport where
  target : TargetId
  region : Nat
  lastAccepted : Byte
  acceptedBlocks : Nat
  acceptedBytes : Nat
  remaining : Nat
  deriving DecidableEq, Repr

/-- Cause of a window closure (R124). -/
inductive ClosureCause where
  | lapsed
  | closed
  deriving DecidableEq, Repr

/-- The content of an alert entry: its kind and fields (R16, R166). The key is derived from it. -/
inductive Alert where
  | flow (f : FlowId) (r : FlowReport)
  | progress (f : FlowId) (r : ProgressReport)
  | image (i : ImageId) (state : ImageState) (tag : Word) (computed : Word) (byParity : Bool)
  | supply (new : SupplyState) (previous : SupplyState) (value : Nat)
  | window (cause : ClosureCause) (failed : Nat)
  | fault (flags : FaultFlags)
  deriving DecidableEq, Repr

/-- The alert queue, oldest first, with the in-flight mark (R166). -/
structure AlertQueue where
  entries : List Alert
  inFlight : Bool
  deriving DecidableEq, Repr

/-! ## What happens to the part from outside and has no row of the table (log 9, log 18) -/

/-- A field of an image record with the contents an upset leaves in it. The state keeps its value (log 25). -/
inductive ImageUpset where
  | state
  | tag (v : Word)
  | regionCount (v : Option Nat)
  | extent (v : Option Extent)
  | written (v : Option (List Bool))
  | expected (v : Option Word)
  | level (v : Option Nat)
  | refCount (v : Nat)
  deriving DecidableEq, Repr

/-- An outside happening: a memory upset that leaves contents of wrong parity, or one more run of 11 recessive
bits seen by a RECOVERING port. -/
inductive Outside where
  | routeUpset (n : RouteId) (e : RouteEntry)
  | targetUpset (n : TargetId) (e : TargetEntry)
  | imageUpset (i : ImageId) (u : ImageUpset)
  | slotUpset (i : ImageId) (r : SlotId) (v : Option Region)
  | checkUpset (index : Fin 4096) (v : Word)
  | cellUpset (c : CellId) (v : CellContent)
  | recessiveRun (p : Port)
  deriving DecidableEq, Repr

end Sys2Proof.Machine
end

