-- ==== Sys2Proof/Machine/CheckList.lean ====
section
/-! DEFINITION. The check list memory (R27): 4096 entries of one 32-bit check value with parity, as a list in
one canonical form. -/

namespace Sys2Proof.Machine

/-- The number of entries (R27). -/
def checkListSize : Nat := 4096

/-- What an entry nothing has written reads as. Its content is not meaningful after a device reset (R27): 0 with
right parity, DESIGN CHOICE, unsafe (log 7). -/
def CheckEntry.unwritten : CheckEntry := ⟨0, false⟩

/-- The entry at an index. -/
def CheckMem.read : CheckMem → Nat → CheckEntry
  | [], _ => CheckEntry.unwritten
  | (j, e) :: rest, k => if j = k then e else CheckMem.read rest k

/-- The list with the entry at `k` taken out or put in, canonical form kept. -/
def CheckMem.put : CheckMem → Nat → CheckEntry → CheckMem
  | [], k, e => if e = CheckEntry.unwritten then [] else [(k, e)]
  | (j, x) :: rest, k, e =>
    if k < j then (if e = CheckEntry.unwritten then (j, x) :: rest else (k, e) :: (j, x) :: rest)
    else if k = j then (if e = CheckEntry.unwritten then rest else (k, e) :: rest)
    else (j, x) :: CheckMem.put rest k e

/-- Write one entry; an index outside the memory names none. -/
def CheckMem.write (m : CheckMem) (k : Nat) (e : CheckEntry) : CheckMem :=
  if k < checkListSize then CheckMem.put m k e else m

/-- Write values to consecutive entries, each with fresh parity (R30). -/
def CheckMem.writeAll (m : CheckMem) (k : Nat) : List Word → CheckMem
  | [] => m
  | v :: rest => CheckMem.writeAll (CheckMem.write m k ⟨v, false⟩) (k + 1) rest

/-- The canonical form: indexes strictly rising and inside the memory, no entry equal to what an unlisted index
reads as. -/
def CheckMem.wf (m : CheckMem) : Bool :=
  m.Pairwise (fun a b => a.1 < b.1) && m.all (fun p => p.1 < checkListSize && p.2 != CheckEntry.unwritten)

end Sys2Proof.Machine
end

