-- ==== Sys2Proof/Machine/ResetValues.lean ====
section
/-! DEFINITION. The value each record takes at a device reset. -/

namespace Sys2Proof.Machine

/-- Base format, value 0. -/
def noId : CanId := ⟨.base, 0⟩

/-- R146, last column. -/
def RouteEntry.reset : RouteEntry :=
  { state := .empty, format := .base, matchValue := 0, matchMask := 0, ingress := 0, egress := 0, cls := .plain,
    parityBad := false }

/-- R19, last column. -/
def TargetEntry.reset : TargetEntry :=
  { state := .empty, segment := .seg0, request := noId, response := noId, guard0 := none,
    guard1 := none, parityBad := false, tracker := .none }

/-- An absent slot with right parity (R25, R34). -/
def Slot.absent : Slot := ⟨none, false⟩

/-- R25, last column; also what IMAGE DISCARD leaves (R34). -/
def ImageRecord.reset : ImageRecord :=
  { state := .empty, tag := 0, regionCount := none, slots := Vector.replicate 8 Slot.absent, extent := none,
    written := none, expected := none, level := none, refCount := 0, progress := none, acc := none, bad := [] }

/-- The empty set of hold causes. -/
def HoldCauses.empty : HoldCauses := ⟨false, false⟩

/-- All ones, the preset of an accumulator (R104). -/
def accPreset : Word := 0xFFFFFFFF#32

/-- R38, last column. -/
def FlowCtx.reset : FlowCtx :=
  { state := .free, binding := none, openRegion := none, expectedSeq := 1, lastAccepted := none,
    acceptedBlocks := 0, acceptedBytes := 0, pendingReq := none, record := none, held := none, fifo := [],
    acc := accPreset, holds := HoldCauses.empty, failures := 0, lastVerdict := none, lastRefusal := none,
    condition := none, activationUnknown := false, late := none, sinceProgress := 0 }

/-- A free cell (R98). Its content is not meaningful: empty, with right parity, DESIGN CHOICE (log 6). -/
def Cell.reset : Cell := { inUse := false, content := ⟨[], none, none⟩, parityBad := false }

/-- R115, last column. -/
def Window.reset : Window := { state := .closed, period := none, expiry := none, renewal := .none }

/-- R127, last column. The next sample time is set by RESET_RELEASE; 0 before it, DESIGN CHOICE (log 6). -/
def Supply.reset : Supply :=
  { settings :=
      { period := 5, offset := 0, lowLimit := 11000, criticalLimit := 9500, restoreLimit := 11500, depth := 3 },
    state := .low, run := none, lastSample := none, converter := .idle, periodicDue := false, nextSample := 0,
    waiting := [] }

/-- R150, R152, R155: 500 kbit/s, 2 Mbit/s, auto-recovery on, counts 0, ACTIVE, queue empty. -/
def PortUnit.reset : PortUnit :=
  { nominal := .k500, dataRate := .m2, autoRecovery := true, txErrors := 0, rxErrors := 0, conf := .active,
    recessiveRuns := 0, queue := [] }

/-- All five ports at reset. -/
def Ports.reset : Ports :=
  ⟨PortUnit.reset, PortUnit.reset, PortUnit.reset, PortUnit.reset, PortUnit.reset⟩

/-- R159, R160: empty queue, READY. -/
def Responder.reset : Responder := ⟨[], none⟩

/-- R166: empty, in-flight mark clear. -/
def AlertQueue.reset : AlertQueue := ⟨[], false⟩

/-- R170: all clear. -/
def FaultFlags.clear : FaultFlags := ⟨false, false, false, false, false⟩

end Sys2Proof.Machine
end

