-- ==== Sys2Proof/Machine/Crc.lean ====
section
/-! DEFINITION. The check value (R103) and the accumulator (R104). -/

namespace Sys2Proof.Machine

/-- One bit fed to the register (R103 step 3). -/
def crcBit (reg : Word) (bit : Bool) : Word :=
  if (reg.getLsbD 0) != bit then (reg >>> 1) ^^^ 0xEDB88320#32 else reg >>> 1

/-- One byte fed, bit 0 to bit 7 (R103 steps 2 and 3). -/
def crcByte (reg : Word) (b : Byte) : Word :=
  [0, 1, 2, 3, 4, 5, 6, 7].foldl (fun r i => crcBit r (b.getLsbD i)) reg

/-- Fold bytes into an accumulator, in order (R104). -/
def crcFold (acc : Word) (bytes : List Byte) : Word := bytes.foldl crcByte acc

/-- The final value of an accumulator: its inverse (R104). -/
def crcFinal (acc : Word) : Word := ~~~acc

/-- The check value of a sequence of bytes (R103). -/
def checkValue (bytes : List Byte) : Word := crcFinal (crcFold accPreset bytes)

end Sys2Proof.Machine
end

