-- ==== Sys2Proof/Machine/Operands.lean ====
section
/-! DEFINITION. Reading and writing bytes: byte order, the parcel layer of a frame (R2, R6), target responses
(R10), windows (R21), regions (R26), request codes (R163), and the codes of named states (R12, R13, R15, R18). -/

namespace Sys2Proof.Machine

/-! ## Byte order: most significant byte first (00_scope.md section 6) -/

/-- Byte `k` of a data field, 0x00 where the field is too short to hold it (R6). -/
def byteAt (d : List Byte) (k : Nat) : Byte := d.getD k 0

/-- The number a list of bytes stands for, most significant byte first. -/
def beNat (d : List Byte) : Nat := d.foldl (fun n b => 256 * n + b.toNat) 0

/-- The `n`-byte field that starts at byte `k`. -/
def fieldAt (d : List Byte) (k n : Nat) : Nat := beNat ((d.drop k).take n)

/-- `v` as `n` bytes, most significant first. -/
def be : Nat → Nat → List Byte
  | 0, _ => []
  | n + 1, v => BitVec.ofNat 8 (v / 256 ^ n) :: be n v

/-- One byte. -/
def b1 (v : Nat) : List Byte := be 1 v

/-- A Bool as a byte 0 or 1. -/
def bBool (v : Bool) : List Byte := b1 v.toNat

/-- The smallest CAN FD data length that holds `n` bytes (R17). -/
def fdLength (n : Nat) : Nat :=
  if n ≤ 8 then n else if n ≤ 12 then 12 else if n ≤ 16 then 16 else if n ≤ 20 then 20
  else if n ≤ 24 then 24 else if n ≤ 32 then 32 else if n ≤ 48 then 48 else 64

/-- Content padded with 0x00 to the smallest CAN FD data length that holds it (R17). -/
def padded (d : List Byte) : List Byte := d ++ List.replicate (fdLength d.length - d.length) 0

/-- A generated frame: CAN FD with bit-rate switching (R17). -/
def generatedFrame (id : CanId) (content : List Byte) : CanFrame := ⟨id, true, true, padded content⟩

/-! ## Milliseconds -/

/-- Milliseconds as a time (log 3). -/
def ms (n : Nat) : Time := 1000 * n

/-- The whole milliseconds from `now` to `deadline`, rounded down; 0 when it has been reached. -/
def msLeft (deadline now : Time) : Nat := (deadline - now) / 1000

/-! ## The parcel layer -/

/-- The kind that bits 7 and 6 of byte 0 name (R2). A frame of data length 0 is taken as a CARRIER (R6). -/
def frameKind (f : CanFrame) : FrameKind :=
  match f.data with
  | [] => .carrier
  | c :: _ =>
    match c.toNat / 64 with
    | 0 => .whole
    | 1 => .opener
    | 2 => .carrier
    | _ => .pace

/-- Bits 5 to 0 of byte 0: the roll index of a CARRIER (R2). -/
def rollIndex (f : CanFrame) : BitVec 6 := (byteAt f.data 0).setWidth 6

/-- The payload length byte of a WHOLE (R2). -/
def wholeLength (f : CanFrame) : Nat := (byteAt f.data 1).toNat

/-- The declared length of an OPENER (R2). -/
def openerLength (f : CanFrame) : Nat := fieldAt f.data 1 2

/-- A WHOLE that breaks condition 3 of R6. -/
def wholeMalformed (f : CanFrame) : Bool :=
  rollIndex f != 0 || wholeLength f == 0 || 62 < wholeLength f || f.data.length < wholeLength f + 2

/-- An OPENER that breaks condition 4 of R6. -/
def openerMalformed (f : CanFrame) : Bool :=
  rollIndex f != 0 || f.data.length != 64 || openerLength f < 63 || 8190 < openerLength f

/-- A malformed WHOLE or OPENER (R6 conditions 1 to 4). -/
def firstMalformed (f : CanFrame) : Bool :=
  !f.fd || (match frameKind f with
    | .whole => wholeMalformed f
    | .opener => openerMalformed f
    | .carrier => false
    | .pace => false)

/-- A carrier that breaks condition 1 or 2 of R6: classical format, or data length 0. -/
def carrierUnreadable (f : CanFrame) : Bool := !f.fd || f.data.isEmpty

/-- The payload bytes a carrier frame can hold: the bytes after byte 0. -/
def carrierRoom (f : CanFrame) : Nat := f.data.length - 1

/-- The payload bytes a parcel takes from its next carrier: the smaller of 63 and the bytes still needed (R2). -/
def carrierShare (declared seen : Nat) : Nat := min 63 (declared - seen)

/-- The byte of a first frame where the payload starts: 2 for a WHOLE, 3 for an OPENER (R3, R4). -/
def payloadStart (f : CanFrame) : Nat :=
  match frameKind f with
  | .opener => 3
  | _ => 2

/-- The request code of a first frame, 0x00 where the frame is too short to hold it (R6). -/
def requestCode (f : CanFrame) : Byte := byteAt f.data (payloadStart f)

/-- The payload length of a first frame: stated by a WHOLE, declared by an OPENER (R9). -/
def parcelLength (f : CanFrame) : Nat :=
  match frameKind f with
  | .opener => openerLength f
  | _ => wholeLength f

/-- The code of an update request (R8). -/
def UpdateCode.code : UpdateCode → Byte
  | .erase => 0x61
  | .open_ => 0x62
  | .block => 0x63
  | .close => 0x64
  | .activate => 0x65
  | .abandon => 0x66

/-- The update request a code names; any other value is other dialogue (R8). -/
def UpdateCode.ofByte (b : Byte) : Option UpdateCode :=
  match b.toNat with
  | 0x61 => some .erase
  | 0x62 => some .open_
  | 0x63 => some .block
  | 0x64 => some .close
  | 0x65 => some .activate
  | 0x66 => some .abandon
  | _ => none

/-- The payload length R8 gives a request that must be a WHOLE; `none` for BLOCK. -/
def UpdateCode.wholeLength : UpdateCode → Option Nat
  | .erase => some 9
  | .open_ => some 11
  | .block => none
  | .close => some 1
  | .activate => some 1
  | .abandon => some 1

/-- An ill-formed update request, judged at a well-formed first frame (R8). -/
def illFormed (c : UpdateCode) (f : CanFrame) : Bool :=
  match c.wholeLength with
  | some n => frameKind f == .opener || parcelLength f != n
  | none => parcelLength f < 3

/-- The first and the number of a first frame's data bytes of a BLOCK (R9). -/
def firstSpan (f : CanFrame) : FoldSpan :=
  match frameKind f with
  | .opener => ⟨5, 59⟩
  | _ => ⟨4, parcelLength f - 2⟩

/-- The bytes of `d` that a span covers. -/
def spanBytes (d : List Byte) (s : FoldSpan) : List Byte := (d.drop s.first).take s.count

/-! ## Target responses (R10) -/

/-- The payload bytes of a response that are read: those its first frame states and holds (log 11). -/
def responsePayload (f : CanFrame) : List Byte :=
  (f.data.drop (payloadStart f)).take (parcelLength f)

/-- The class of a response payload, or `none` for other dialogue (R10). -/
def classOf : List Byte → Option Response
  | [] => none
  | c :: rest =>
    if c = 0xF1 then
      match rest with
      | code :: reason :: _ => some (.refusal code reason)
      | _ => none
    else if c = 0xF2 then
      match rest with
      | code :: _ => some (.wait code)
      | [] => none
    else if 0x81 ≤ c.toNat ∧ c.toNat ≤ 0x86 then
      match rest with
      | [] => if c = 0x83 then none else some (.positive c 0)
      | echo :: _ => some (.positive c echo)
    else none

/-- A dialogue response frame as the flow controller reads it: only a CAN FD WHOLE or OPENER is read (R10). -/
def responseOf (f : CanFrame) : Option Response :=
  if f.fd then
    match frameKind f with
    | .whole => classOf (responsePayload f)
    | .opener => classOf (responsePayload f)
    | .carrier => none
    | .pace => none
  else none

/-- A CAN FD WHOLE whose first payload byte is 0xF1 (R7). -/
def isWholeRefusal (f : CanFrame) : Bool :=
  f.fd && frameKind f == .whole && (responsePayload f).head? == some 0xF1

/-! ## Windows and regions -/

/-- The size of a window: 4096 shifted left by the size code (R21). -/
def windowSize (sizeCode : Nat) : Nat := 4096 * 2 ^ sizeCode

/-- A base that is a multiple of the size (R21). -/
def aligned (base sizeCode : Nat) : Bool := base % windowSize sizeCode == 0

/-- Two address ranges, each a first address and a length, that share an address. -/
def rangesOverlap (a la b lb : Nat) : Bool := a < b + lb && b < a + la

/-- A range touches a guard window (R78). -/
def AddrWindow.touches (w : AddrWindow) (address length : Nat) : Bool :=
  rangesOverlap w.base (windowSize w.sizeCode) address length

/-- Two region windows overlap (R21, R29). -/
def Region.windowsOverlap (r q : Region) : Bool :=
  rangesOverlap r.base (windowSize r.sizeCode) q.base (windowSize q.sizeCode)

/-- A range lies wholly inside the window of the region (R78). -/
def Region.contains (r : Region) (address length : Nat) : Bool :=
  r.base ≤ address && address + length ≤ r.base + windowSize r.sizeCode

/-- The length divided by the block length, rounded up (R26). -/
def Region.checkCount (r : Region) : Nat := (r.length + r.blockLength - 1) / r.blockLength

/-- The check count of a slot, 0 when it is absent. -/
def Slot.checkCount (s : Slot) : Nat :=
  match s.region with
  | some r => r.checkCount
  | none => 0

/-- The sum of the check counts of the first `n` slots: the check offset of region `n` (R26). -/
def checkOffset (slots : Vector Slot 8) (n : Nat) : Nat := ((slots.toList.take n).map Slot.checkCount).sum

/-- The block lengths the part takes (R26). -/
def blockLengths : List Nat := [256, 512, 1024, 2048, 4096]

/-- The expected data length of block index `k` of the open region (R45). -/
def OpenRegion.expectedLength (o : OpenRegion) (k : Nat) : Nat :=
  if k + 1 < o.checkCount then o.blockLength else o.length - k * o.blockLength

/-- The serialization of one region (R32 part 3). -/
def Region.serial (r : Region) : List Byte :=
  be 4 r.base ++ b1 r.sizeCode ++ be 4 r.length ++ be 2 r.blockLength ++ bBool r.erase

/-- The serialization of a slot, empty when it is absent. -/
def Slot.serial (s : Slot) : List Byte :=
  match s.region with
  | some r => r.serial
  | none => []

/-! ## Identifiers -/

/-- An identifier value in the range of its format (R20). -/
def idInRange (format : IdFormat) (v : Nat) : Bool :=
  match format with
  | .base => v ≤ 0x7FF
  | .extended => v ≤ 0x1FFFFFFF

/-- The arbitration key as one number: the 11 most significant bits, then base before extended, then the
remaining 18 bits of an extended identifier (R155). -/
def idKey (i : CanId) : Nat :=
  match i.format with
  | .base => (i.value.toNat % 2 ^ 11) * 2 ^ 19
  | .extended => (i.value.toNat / 2 ^ 18) * 2 ^ 19 + 2 ^ 18 + i.value.toNat % 2 ^ 18

/-- The request identifier of a strap value (R158). -/
def requestId (strap : BitVec 3) : CanId := ⟨.base, BitVec.ofNat 29 (0x7A0 + 4 * strap.toNat)⟩

/-- The reply identifier (R158). -/
def replyId (strap : BitVec 3) : CanId := ⟨.base, BitVec.ofNat 29 (0x7A0 + 4 * strap.toNat + 1)⟩

/-- The alert identifier (R158). -/
def alertId (strap : BitVec 3) : CanId := ⟨.base, BitVec.ofNat 29 (0x7A0 + 4 * strap.toNat + 2)⟩

/-- The three management identifiers (R158). -/
def managementIds (strap : BitVec 3) : List CanId := [requestId strap, replyId strap, alertId strap]

/-! ## Ports and segments -/

/-- All ports in the order of their codes. -/
def allPorts : List Port := [.trunk, .seg0, .seg1, .seg2, .seg3]

/-- A port's code: 0 for TRUNK and 1 to 4 for SEG0 to SEG3 (C1 section 1.8). -/
def portCode : Port → Nat
  | .trunk => 0
  | .seg0 => 1
  | .seg1 => 2
  | .seg2 => 3
  | .seg3 => 4

/-- The port a code names. -/
def portOfCode (n : Nat) : Option Port := allPorts[n]?

/-- The port of a segment. -/
def Segment.port : Segment → Port
  | .seg0 => .seg0
  | .seg1 => .seg1
  | .seg2 => .seg2
  | .seg3 => .seg3

/-- A segment's number, 0 to 3 (C1 section 1.8). -/
def Segment.code : Segment → Nat
  | .seg0 => 0
  | .seg1 => 1
  | .seg2 => 2
  | .seg3 => 3

/-- The segment a number names. -/
def Segment.ofCode (n : Nat) : Option Segment := [Segment.seg0, .seg1, .seg2, .seg3][n]?

/-- Membership in a port set (R18). -/
def PortSet.has (s : PortSet) (p : Port) : Bool := s.getLsbD (portCode p)

/-- The nominal rate a code names (R150). -/
def NominalRate.ofCode (n : Nat) : Option NominalRate := [NominalRate.k125, .k250, .k500, .k1000][n]?

/-- The data rate a code names (R150). -/
def DataRate.ofCode (n : Nat) : Option DataRate := [DataRate.m1, .m2, .m4, .m5, .m8][n]?

/-- The identifier format a code names (R18). -/
def formatOfCode (n : Nat) : Option IdFormat := [IdFormat.base, .extended][n]?

/-- The route class a code names (R18). -/
def RouteClass.ofCode (n : Nat) : Option RouteClass := [RouteClass.plain, .blocked][n]?

/-- The default action a code names (R18). -/
def DefaultAction.ofCode (n : Nat) : Option DefaultAction := [DefaultAction.flood, .drop][n]?

/-- A Bool from a byte that must be 0 or 1. -/
def boolOfCode (n : Nat) : Option Bool := [false, true][n]?

/-- A number below `n`, when it is one. -/
def below (n v : Nat) : Option (Fin n) := if h : v < n then some ⟨v, h⟩ else none

/-! ## Codes of named states (R18) -/

/-- Flow state codes (R18). -/
def FlowState.code : FlowState → Nat
  | .free => 0
  | .idle => 1
  | .erasing => 2
  | .opening => 3
  | .loading => 4
  | .closing => 5
  | .abandoning => 6
  | .activating => 7
  | .done => 8
  | .failed => 9

/-- Flow condition codes (R18). -/
def Condition.code : Condition → Nat
  | .windowLapsed => 1
  | .windowClosed => 2
  | .outOfWindow => 3
  | .guarded => 4
  | .retryLimit => 5
  | .noResponse => 6
  | .tableFault => 7

/-- Region state codes (R18). -/
def RegionState.code : RegionState → Nat
  | .blank => 0
  | .erased => 1
  | .opened => 2
  | .verified => 3
  | .short => 4

/-- Image state codes (R18). -/
def ImageState.code : ImageState → Nat
  | .empty => 0
  | .loading => 1
  | .checking => 2
  | .ready => 3
  | .defective => 4

/-- Target entry state codes (R18). -/
def EntryState.code : EntryState → Nat
  | .empty => 0
  | .valid => 1

/-- Route entry state codes (R18). -/
def RouteState.code : RouteState → Nat
  | .empty => 0
  | .valid => 1
  | .damaged => 2

/-- Route class codes (R18). -/
def RouteClass.code : RouteClass → Nat
  | .plain => 0
  | .blocked => 1

/-- Identifier format codes (R18). -/
def formatCode : IdFormat → Nat
  | .base => 0
  | .extended => 1

/-- Tracker state codes (R23). -/
def Tracker.code : Tracker → Nat
  | .none => 0
  | .passing => 1
  | .refused => 2

/-- Part mode codes (R18). -/
def PartMode.code : PartMode → Nat
  | .passthrough => 0
  | .routing => 1

/-- Default action codes (R18). -/
def DefaultAction.code : DefaultAction → Nat
  | .flood => 0
  | .drop => 1

/-- Window state codes (R18). -/
def WindowState.code : WindowState → Nat
  | .closed => 0
  | .opened => 1

/-- Renewal step codes (R18). -/
def RenewalStep.code : RenewalStep → Nat
  | .none => 0
  | .armed => 1

/-- Supply state codes (R18). -/
def SupplyState.code : SupplyState → Nat
  | .normal => 0
  | .low => 1
  | .critical => 2

/-- Confinement state codes (R18). -/
def Confinement.code : Confinement → Nat
  | .active => 0
  | .passive => 1
  | .off => 2
  | .recovering => 3

/-- Converter codes (R140). -/
def Converter.code : Converter → Nat
  | .idle => 0
  | .converting _ _ => 1

/-- Verdict codes (R13). -/
def Verdict.code : Verdict → Nat
  | .matched => 0
  | .mismatch => 1
  | .sequence => 2
  | .overrun => 3
  | .underrun => 4
  | .broken => 5
  | .tableFault => 6

/-- Refusal reason values (R12). -/
def Reason.code : Reason → Byte
  | .windowClosed => 0xC1
  | .unbound => 0xC2
  | .outOfWindow => 0xC3
  | .guarded => 0xC4
  | .supply => 0xC5
  | .held => 0xC6
  | .overlap => 0xC7
  | .notVerified => 0xC8
  | .order => 0xC9
  | .ended => 0xCA
  | .layout => 0xCB
  | .checkFailed => 0xCC
  | .broken => 0xCD

/-- Management reason values (R15). -/
def MgmtReason.code : MgmtReason → Nat
  | .badValue => 1
  | .order => 2
  | .busy => 3
  | .noRoom => 4
  | .duplicate => 5
  | .incomplete => 6
  | .overlap => 7
  | .unknown => 8

/-- Parcel kind codes of FLOW QUERY (R165). -/
def parcelCode : Option ParcelRecord → Nat
  | none => 0
  | some (.inspected _) => 1
  | some (.gated _) => 2
  | some (.passing _ _) => 3
  | some .refused => 4

/-- The update code of a gated request. -/
def Gated.code : Gated → Byte
  | .erase _ => UpdateCode.erase.code
  | .activate => UpdateCode.activate.code

/-- The update code of a pending request (R47). -/
def PendingKind.code : PendingKind → Byte
  | .erase _ => UpdateCode.erase.code
  | .open_ _ => UpdateCode.open_.code
  | .block _ _ _ => UpdateCode.block.code
  | .close _ => UpdateCode.close.code
  | .abandon _ => UpdateCode.abandon.code
  | .activate => UpdateCode.activate.code

/-! ## Management requests (R163) -/

/-- The request code of a management request (R163). -/
def Request.code : Request → Byte
  | .status => 0x01
  | .faultsClear => 0x02
  | .portSet => 0x10
  | .portRestart => 0x11
  | .routeWrite => 0x12
  | .routeRead => 0x13
  | .routingEnable => 0x14
  | .targetWrite => 0x20
  | .targetRead => 0x21
  | .imageBegin => 0x30
  | .imageRegion => 0x31
  | .imageChecks => 0x32
  | .imageEnd => 0x33
  | .imageDiscard => 0x34
  | .imageQuery => 0x35
  | .windowOpen => 0x40
  | .windowRenew => 0x41
  | .windowClose => 0x42
  | .flowBind => 0x50
  | .flowRelease => 0x51
  | .flowHold => 0x52
  | .flowResume => 0x53
  | .flowQuery => 0x54
  | .supplySet => 0x60
  | .supplyQuery => 0x61

/-- The 25 requests in the order of R163. -/
def allRequests : List Request :=
  [.status, .faultsClear, .portSet, .portRestart, .routeWrite, .routeRead, .routingEnable, .targetWrite,
   .targetRead, .imageBegin, .imageRegion, .imageChecks, .imageEnd, .imageDiscard, .imageQuery, .windowOpen,
   .windowRenew, .windowClose, .flowBind, .flowRelease, .flowHold, .flowResume, .flowQuery, .supplySet,
   .supplyQuery]

/-- The request a code names, when R163 lists it. -/
def Request.ofByte (b : Byte) : Option Request := allRequests.find? (fun r => r.code == b)

/-- The total size of a request's parameters (R163). `d` is the frame's data field: IMAGE CHECKS takes the value
count it states (R30), which a frame too short for the fixed parameters does not reach. -/
def Request.paramBytes (r : Request) (d : List Byte) : Nat :=
  match r with
  | .status => 0
  | .faultsClear => 1
  | .portSet => 4
  | .portRestart => 1
  | .routeWrite => 14
  | .routeRead => 1
  | .routingEnable => 1
  | .targetWrite => 25
  | .targetRead => 1
  | .imageBegin => 8
  | .imageRegion => 14
  | .imageChecks => 4 + 4 * (byteAt d 5).toNat
  | .imageEnd => 6
  | .imageDiscard => 1
  | .imageQuery => 1
  | .windowOpen => 2
  | .windowRenew => 1
  | .windowClose => 0
  | .flowBind => 11
  | .flowRelease => 1
  | .flowHold => 1
  | .flowResume => 1
  | .flowQuery => 1
  | .supplySet => 10
  | .supplyQuery => 0

/-- A 16-bit two's complement value (R139, R140). -/
def int16 (v : Nat) : Int := (BitVec.ofNat 16 v).toInt

/-- An integer as two bytes, two's complement (R140). -/
def be16Int (v : Int) : List Byte := be 2 (BitVec.ofInt 16 v).toNat

end Sys2Proof.Machine
end

