-- ==== Sys2Proof/Machine/Flags.lean ====
section
/-! DEFINITION. Flags: the fault flags (R170 to R172), the flag bytes of alerts and replies (R18, R165), hold
causes (R60), and the confinement state of a port judged from its counts (R152). -/

namespace Sys2Proof.Machine

/-- One fault flag. -/
def FaultFlags.get (f : FaultFlags) : FaultFlag → Bool
  | .route => f.route
  | .target => f.target
  | .image => f.image
  | .checklist => f.checklist
  | .cell => f.cell

/-- The flags with one set. -/
def FaultFlags.set (f : FaultFlags) : FaultFlag → FaultFlags
  | .route => { f with route := true }
  | .target => { f with target := true }
  | .image => { f with image := true }
  | .checklist => { f with checklist := true }
  | .cell => { f with cell := true }

/-- Bits 0 to 5 as a number, bit 0 first. -/
def bits (l : List Bool) : Nat := l.foldr (fun b n => b.toNat + 2 * n) 0

/-- The flags in the coding of R18: bit 0 ROUTE, bit 1 TARGET, bit 2 IMAGE, bit 3 CHECKLIST, bit 4 CELL. -/
def FaultFlags.byte (f : FaultFlags) : Nat := bits [f.route, f.target, f.image, f.checklist, f.cell]

/-- Every flag whose bit is set in the mask becomes clear (R172). -/
def FaultFlags.clearMask (f : FaultFlags) (mask : Byte) : FaultFlags :=
  { route := f.route && !mask.getLsbD 0, target := f.target && !mask.getLsbD 1, image := f.image && !mask.getLsbD 2,
    checklist := f.checklist && !mask.getLsbD 3, cell := f.cell && !mask.getLsbD 4 }

/-- The FAULT output is asserted while at least one flag is set (R170). -/
def FaultFlags.line (f : FaultFlags) : Bool := f.route || f.target || f.image || f.checklist || f.cell

/-- Hold causes as a byte: bit 0 MASTER, bit 1 SUPPLY (R61). -/
def HoldCauses.byte (h : HoldCauses) : Nat := bits [h.master, h.supply]

/-- The set holds a cause (R60). -/
def HoldCauses.any (h : HoldCauses) : Bool := h.master || h.supply

/-- The flags byte of a FLOW alert (R18). -/
def FlowReport.flags (r : FlowReport) : Nat :=
  bits [r.activationUnknown, r.late.isSome, r.holds.master, r.holds.supply, r.lastRefusal.isSome]

/-- The flags byte of a FLOW QUERY reply: bits 0 to 4 as in the FLOW alert, bit 5 last accepted sequence present
(R165). -/
def FlowCtx.flags (c : FlowCtx) : Nat :=
  bits [c.activationUnknown, c.late.isSome, c.holds.master, c.holds.supply, c.lastRefusal.isSome,
    c.lastAccepted.isSome]

/-- The confinement state judged afresh from the counts: PASSIVE when either is 128 or more, ACTIVE when both are
below 128; OFF and RECOVERING are not left this way (R152). -/
def PortUnit.judged (u : PortUnit) : PortUnit :=
  match u.conf with
  | .active => { u with conf := if 128 ≤ u.txErrors ∨ 128 ≤ u.rxErrors then .passive else .active }
  | .passive => { u with conf := if 128 ≤ u.txErrors ∨ 128 ≤ u.rxErrors then .passive else .active }
  | .off => u
  | .recovering => u

/-- A port in ACTIVE or PASSIVE carries traffic (R151, R152). -/
def Confinement.carries : Confinement → Bool
  | .active => true
  | .passive => true
  | .off => false
  | .recovering => false

/-- IDLE, ERASING, OPENING, LOADING, CLOSING, ABANDONING or ACTIVATING: a flow at work (R63). -/
def FlowState.atWork : FlowState → Bool
  | .free => false
  | .idle => true
  | .erasing => true
  | .opening => true
  | .loading => true
  | .closing => true
  | .abandoning => true
  | .activating => true
  | .done => false
  | .failed => false

end Sys2Proof.Machine
end

