-- ==== Sys2Proof/Machine/State.lean ====
section
/-! DEFINITION. The state of the part, its reset, and the reasons a step could stop. -/

namespace Sys2Proof.Machine

/-- The reasons the machine could stop with a fault. There are none: every error the manual describes is
reported in state (a fault flag, a failed flow, a port OFF, a refused request), and the part goes on. Safe. -/
inductive Fault where
  deriving DecidableEq, Repr

/-- The reasons a command has no meaning. -/
inductive Refusal where
  /-- Raised only by an arm of `exec` that has no meaning yet; no arm does. Safe. -/
  | notModelled (mnemonic : String)
  deriving DecidableEq, Repr

/-- Everything the spec gives the part (INVENTORY.md, "State"), with the queue of waiting commands. -/
structure State where
  /-- Commands waiting, first in, first out. -/
  pending : List Instr
  /-- Outside happenings that have no row of the table, first in, first out (log 9). -/
  outside : List Outside
  /-- The time of the last event taken (log 3). -/
  now : Time
  /-- The counter the free values are applied to (log 10). -/
  freeCount : Nat
  /-- The frames that the event in progress has offered to TRUNK, in their order; empty between events (log 28). -/
  offers : List Offer
  /-- The RESET line is held low (00_scope.md section 7; log 5). -/
  resetHeld : Bool
  /-- The strap value sampled at the release of reset (R158). -/
  strap : BitVec 3
  mode : PartMode
  defaultAction : DefaultAction
  routes : Vector RouteEntry 96
  targets : Vector TargetEntry 32
  images : Vector ImageRecord 16
  checkList : CheckMem
  extents : List ExtentEntry
  flows : Vector FlowCtx 16
  cells : Vector Cell 512
  /-- `none` is IDLE (R106). -/
  engine : Option Slice
  window : Window
  supply : Supply
  ports : Ports
  mgmt : Responder
  alerts : AlertQueue
  faults : FaultFlags
  deriving DecidableEq, Repr

/-- The machine right after a device reset, RESET still held low (log 5). -/
def State.reset : State :=
  { pending := [], outside := [], now := 0, freeCount := 0, offers := [], resetHeld := true,
    strap := 0,
    mode := .passthrough, defaultAction := .flood,
    routes := Vector.replicate 96 RouteEntry.reset,
    targets := Vector.replicate 32 TargetEntry.reset,
    images := Vector.replicate 16 ImageRecord.reset,
    checkList := [], extents := [],
    flows := Vector.replicate 16 FlowCtx.reset,
    cells := Vector.replicate 512 Cell.reset,
    engine := none, window := Window.reset, supply := Supply.reset, ports := Ports.reset,
    mgmt := Responder.reset, alerts := AlertQueue.reset, faults := FaultFlags.clear }

end Sys2Proof.Machine
end

