-- ==== Sys2Proof/Machine/Ops.lean ====
section
/-! DEFINITION. The shared operations over the state: taking an event, reading and writing the records, transmit
queues, alerts and fault flags, cells, the check engine's slices, gate requests, refusals, the pending request, and
the entry of a flow to FAILED. -/

namespace Sys2Proof.Machine

/-! ## Taking an event -/

/-- Time goes on to the event's time; it never goes back (log 3). -/
def State.advance (s : State) (t : Time) : State := { s with now := max s.now t }

/-- An event taken at time `t`: while RESET is held low nothing but the time changes (log 5). -/
def State.event (s : State) (t : Time) (f : State → State) : Host.Outcome State Fault Refusal :=
  if s.resetHeld then .next (s.advance t) else .next (f (s.advance t))

/-! ## Records -/

/-- Flow contexts in ascending number. -/
def allFlows : List FlowId := [0, 1, 2, 3, 4, 5, 6, 7, 8, 9, 10, 11, 12, 13, 14, 15]

/-- Images in ascending number. -/
def allImages : List ImageId := [0, 1, 2, 3, 4, 5, 6, 7, 8, 9, 10, 11, 12, 13, 14, 15]

/-- Targets in ascending number. -/
def allTargets : List TargetId :=
  [0, 1, 2, 3, 4, 5, 6, 7, 8, 9, 10, 11, 12, 13, 14, 15, 16, 17, 18, 19, 20, 21, 22, 23, 24, 25, 26, 27, 28, 29, 30,
   31]

/-- A flow context. -/
def State.flow (s : State) (f : FlowId) : FlowCtx := s.flows.get f

/-- Write a flow context. -/
def State.setFlow (s : State) (f : FlowId) (c : FlowCtx) : State := { s with flows := s.flows.set f c }

/-- Change a flow context. -/
def State.mapFlow (s : State) (f : FlowId) (g : FlowCtx → FlowCtx) : State := s.setFlow f (g (s.flow f))

/-- A target entry. -/
def State.target (s : State) (n : TargetId) : TargetEntry := s.targets.get n

/-- Write a target entry. -/
def State.setTarget (s : State) (n : TargetId) (e : TargetEntry) : State := { s with targets := s.targets.set n e }

/-- Set the tracker of a target (R19). -/
def State.setTracker (s : State) (n : TargetId) (k : Tracker) : State :=
  s.setTarget n { s.target n with tracker := k }

/-- A route entry. -/
def State.route (s : State) (n : RouteId) : RouteEntry := s.routes.get n

/-- Write a route entry. -/
def State.setRoute (s : State) (n : RouteId) (e : RouteEntry) : State := { s with routes := s.routes.set n e }

/-- An image record. -/
def State.image (s : State) (i : ImageId) : ImageRecord := s.images.get i

/-- Write an image record. -/
def State.setImage (s : State) (i : ImageId) (r : ImageRecord) : State := { s with images := s.images.set i r }

/-- A cell. -/
def State.cell (s : State) (c : CellId) : Cell := s.cells.get c

/-- Write a cell. -/
def State.setCell (s : State) (c : CellId) (x : Cell) : State := { s with cells := s.cells.set c x }

/-- A port unit. -/
def Ports.get (p : Ports) : Port → PortUnit
  | .trunk => p.trunk
  | .seg0 => p.seg0
  | .seg1 => p.seg1
  | .seg2 => p.seg2
  | .seg3 => p.seg3

/-- The ports with one unit written. -/
def Ports.set (p : Ports) : Port → PortUnit → Ports
  | .trunk, u => { p with trunk := u }
  | .seg0, u => { p with seg0 := u }
  | .seg1, u => { p with seg1 := u }
  | .seg2, u => { p with seg2 := u }
  | .seg3, u => { p with seg3 := u }

/-- A port unit. -/
def State.port (s : State) (p : Port) : PortUnit := s.ports.get p

/-- Write a port unit. -/
def State.setPort (s : State) (p : Port) (u : PortUnit) : State := { s with ports := s.ports.set p u }

/-- The target a flow's binding names. -/
def FlowCtx.target (c : FlowCtx) : Option TargetId := c.binding.map (·.target)

/-- The parameters of a bound flow; a flow without a binding has none, and no rule reads them then. -/
def FlowCtx.params (c : FlowCtx) : FlowParams :=
  match c.binding with
  | some b => b.params
  | none => ⟨0, 0, 0, 0, 0, 0, 0⟩

/-- The flow whose state is not FREE and whose binding names the target (R19). -/
def State.boundFlow (s : State) (n : TargetId) : Option FlowId :=
  allFlows.find? (fun f => (s.flow f).state != .free && (s.flow f).target == some n)

/-- The number of flows that are not FREE and whose binding names the image (R36). -/
def State.flowsNaming (s : State) (i : ImageId) : Nat :=
  allFlows.countP (fun f => (s.flow f).state != .free && (s.flow f).binding.map (·.image) == some i)

/-- The responder is READY when it holds no reply (R160). -/
def State.ready (s : State) : Bool := s.mgmt.slot.isNone

/-! ## Alerts and fault flags (C9) -/

/-- The key under which an alert is queued (R166). -/
def Alert.key : Alert → AlertKey
  | .flow f _ => .flow f
  | .progress f _ => .flow f
  | .image i _ _ _ _ => .image i
  | .supply _ _ _ => .supply
  | .window _ _ => .window
  | .fault _ => .fault

/-- Queue an alert: the entry of the same key is replaced in place, otherwise a new one joins the tail (R167). -/
def putAlert (a : Alert) : List Alert → List Alert
  | [] => [a]
  | x :: rest => if x.key = a.key then a :: rest else x :: putAlert a rest

/-- Queue an alert (R167). -/
def State.queueAlert (s : State) (a : Alert) : State :=
  { s with alerts := { s.alerts with entries := putAlert a s.alerts.entries } }

/-- Remove the entry of a key without sending it (R169). -/
def State.removeAlert (s : State) (k : AlertKey) : State :=
  { s with alerts := { s.alerts with entries := s.alerts.entries.filter (fun a => a.key != k) } }

/-- A parity error sets the fault flag; a flag that goes from clear to set queues a FAULT alert with the five flags
after the change (R171). -/
def State.raiseFault (s : State) (k : FaultFlag) : State :=
  if s.faults.get k then s
  else
    let flags := s.faults.set k
    State.queueAlert { s with faults := flags } (.fault flags)

/-- Raise a fault flag when a read found a parity error. -/
def State.raiseIf (s : State) (bad : Bool) (k : FaultFlag) : State := if bad then s.raiseFault k else s

/-! ## Transmit queues (C8 section 8.5) -/

/-- The queued frames that are PLAIN. -/
def PortUnit.plainCount (u : PortUnit) : Nat := u.queue.countP (fun q => q.cls == .plain)

/-- The queued frames that are PLAIN or DIALOGUE. -/
def PortUnit.forwardedCount (u : PortUnit) : Nat := u.queue.countP (fun q => q.cls == .plain || q.cls == .dialogue)

/-- The class is within its share of the queue (R156). -/
def PortUnit.withinShare (u : PortUnit) (p : Port) : QueueClass → Bool
  | .plain => u.plainCount < 24 && (p != .trunk || u.forwardedCount < 28)
  | .dialogue => p != .trunk || u.forwardedCount < 28
  | .generated _ => p == .trunk

/-- The queue has room for a frame of the class: the port is ACTIVE or PASSIVE, a slot is free, and the class is
within its share (R156). -/
def State.room (s : State) (p : Port) (k : QueueClass) : Bool :=
  (s.port p).conf.carries && (s.port p).queue.length < 32 && (s.port p).withinShare p k

/-- A joining frame is placed after every frame of lower or equal key and before every frame of higher key
(R155). -/
def insertByKey (q : QueuedFrame) : List QueuedFrame → List QueuedFrame
  | [] => [q]
  | x :: rest => if idKey q.frame.id < idKey x.frame.id then q :: x :: rest else x :: insertByKey q rest

/-- A frame joins the queue of a port (R155). -/
def State.enqueue (s : State) (p : Port) (k : QueueClass) (f : CanFrame) : State :=
  s.setPort p { s.port p with queue := insertByKey ⟨f, k, false⟩ (s.port p).queue }

/-- A frame is offered to a queue: it joins when there is room and is dropped otherwise (R156, R157). -/
def State.offer (s : State) (p : Port) (k : QueueClass) (f : CanFrame) : State :=
  if s.room p k then s.enqueue p k f else s

/-- A frame is offered to TRUNK at the event in progress. It joins, or is dropped, when the event ends, since a reply or
an alert may take a free slot before it (R162, log 28). -/
def State.offerTrunk (s : State) (k : QueueClass) (f : CanFrame) : State :=
  { s with offers := s.offers ++ [⟨k, f, false⟩] }

/-- What the event has offered so far comes before an alert that it queues from here on into an empty alert queue
(R59, R78, R134). -/
def State.offersComeFirst (s : State) : State :=
  if s.alerts.entries = [] then { s with offers := s.offers.map fun x => { x with ahead := true } } else s

/-! ## Refusals (R11, R97) -/

/-- A refusal parcel: a WHOLE of payload length 4 on the target's response identifier (R11). -/
def refusalFrame (e : TargetEntry) (code : Byte) (reason : Reason) (detail : Byte) : CanFrame :=
  generatedFrame e.response [0x00, 0x04, 0xF1, code, reason.code, detail]

/-- Send one refusal: it is offered to the TRUNK queue, to be placed in part-generated room or dropped (R97, R162). The
response identifier is taken as the entry holds it; no rule lists this as a read that checks parity (log 16). -/
def State.refuse (s : State) (n : TargetId) (code : Byte) (reason : Reason) (detail : Byte) : State :=
  s.offerTrunk (.generated .refusal) (refusalFrame (s.target n) code reason detail)

/-! ## Gate requests and conversions (C7) -/

/-- A flow number joins a set held ascending. -/
def insertFlow (f : FlowId) : List FlowId → List FlowId
  | [] => [f]
  | x :: rest => if f < x then f :: x :: rest else if f = x then x :: rest else x :: insertFlow f rest

/-- Supply monitor changed. -/
def State.mapSupply (s : State) (g : Supply → Supply) : State := { s with supply := g s.supply }

/-- The duration of a conversion: 0.2 ms (R128). -/
def conversionTime : Time := 200

/-- A conversion starts: the waiting gate requests become its served gate requests (R128). -/
def State.startConversion (s : State) : State :=
  s.mapSupply fun m => { m with converter := .converting (s.now + conversionTime) m.waiting, waiting := [] }

/-- A gate request: it starts a conversion at once, or joins the waiting gate requests (R128, R136). -/
def State.gateRequest (s : State) (f : FlowId) : State :=
  let s := s.mapSupply fun m => { m with waiting := insertFlow f m.waiting }
  match s.supply.converter with
  | .idle => s.startConversion
  | .converting _ _ => s

/-- A set of flows with one taken out. -/
def dropFlow (f : FlowId) (l : List FlowId) : List FlowId := l.filter (· != f)

/-- The served set of a converter with one flow taken out. -/
def Converter.withdraw (f : FlowId) : Converter → Converter
  | .idle => .idle
  | .converting c served => .converting c (dropFlow f served)

/-- A gate request is withdrawn: the flow leaves the waiting or the served set, whichever holds it (R136). -/
def State.withdrawGate (s : State) (f : FlowId) : State :=
  s.mapSupply fun m => { m with waiting := dropFlow f m.waiting, converter := m.converter.withdraw f }

/-! ## Cells (C5 section 5.1) -/

/-- The cells a flow holds, one in both the FIFO and the held frame counted once (R100). -/
def FlowCtx.heldCells (c : FlowCtx) : List CellId :=
  match c.held with
  | none => c.fifo
  | some h => if h ∈ c.fifo then c.fifo else c.fifo ++ [h]

/-- The lowest-numbered free cell (R99). -/
def State.lowestFree (s : State) : Option CellId :=
  match s.cells.toList.findIdx? (fun c => !c.inUse) with
  | some k => below 512 k
  | none => none

/-- The number of free cells (R101). -/
def State.freeCells (s : State) : Nat := s.cells.toList.countP (fun c => !c.inUse)

/-- The cell the pool gives a flow, or none: quota first, then the lowest free cell (R99). -/
def State.cellFor (s : State) (f : FlowId) : Option CellId :=
  if (s.flow f).params.cellQuota ≤ (s.flow f).heldCells.length then none else s.lowestFree

/-- A given cell is marked in use and filled with fresh parity (R98, R99). -/
def State.fillCell (s : State) (c : CellId) (x : CellContent) : State := s.setCell c ⟨true, x, false⟩

/-- A cell is returned to the pool; its content is kept (R101). -/
def State.freeCell (s : State) (c : CellId) : State := s.setCell c { s.cell c with inUse := false }

/-- Every cell of the flow's FIFO and its held frame are returned to the pool (R101). -/
def State.freeFlowCells (s : State) (f : FlowId) : State :=
  let c := s.flow f
  (c.heldCells.foldl State.freeCell s).setFlow f { c with fifo := [], held := none }

/-! ## The check engine's slices (C5 section 5.3) -/

/-- The current slice is abandoned when the flow owns it (R113). -/
def State.abandonFlowSlice (s : State) (f : FlowId) : State :=
  match s.engine with
  | some ⟨.flow g c r, _⟩ => if g = f then { s with engine := some ⟨.flow g c r, true⟩ } else s
  | _ => s

/-- The current slice is abandoned when the image owns it (R113). -/
def State.abandonImageSlice (s : State) (i : ImageId) : State :=
  match s.engine with
  | some ⟨.image j b n e, _⟩ => if j = i then { s with engine := some ⟨.image j b n e, true⟩ } else s
  | _ => s

/-- A flow slice begins: it takes the head cell of the FIFO and reads it (R106). -/
def State.beginFlowSlice (s : State) (f : FlowId) : State :=
  match (s.flow f).fifo with
  | [] => { s with engine := none }
  | c :: _ => { s with engine := some ⟨.flow f c (s.cell c), false⟩ }

/-- The slots of the image's regions, those below the region count; the others play no part (R31). -/
def ImageRecord.usedSlots (r : ImageRecord) : List Slot := r.slots.toList.take (r.regionCount.getD 0)

/-- The header part of the serialization: tag, region count, regions (R32 parts 1 to 3). -/
def ImageRecord.header (r : ImageRecord) : List Byte :=
  be 4 r.tag.toNat ++ b1 (r.regionCount.getD 0) ++ (r.usedSlots.map Slot.serial).flatten

/-- A parity error in what the first slice reads of the record for the header (R32, R33; log 20). Whether a slot reads
as loaded stands under its parity (log 23). -/
def ImageRecord.headerBad (r : ImageRecord) : Bool :=
  r.bad.contains .tag || r.bad.contains .regionCount || r.usedSlots.any (·.parityBad)

/-- What an image slice fixes at its beginning: up to 16 check entries from the self-check progress, with the
header before them for the first slice, and the first parity error its reads find (R32, R33, R106). -/
def State.imageWork (s : State) (i : ImageId) : SliceWork :=
  let r := s.image i
  let progress := r.progress.getD 0
  let extent := r.extent.getD ⟨0, 0⟩
  let n := min 16 (extent.count - progress)
  let entries := (List.range n).map fun k => s.checkList.read (extent.first + progress + k)
  let recordBad := r.bad.contains .extent || (progress == 0 && r.headerBad)
  let error := if recordBad then some FaultFlag.image
    else if entries.any (·.parityBad) then some FaultFlag.checklist else none
  let header := if progress = 0 then r.header else []
  .image i (header ++ (entries.map fun e => be 4 e.value.toNat).flatten) n error

/-- An image slice begins (R106). -/
def State.beginImageSlice (s : State) (i : ImageId) : State :=
  { s with engine := some ⟨s.imageWork i, false⟩ }

/-- A requester of the check engine (R105). -/
inductive Requester where
  | flow (f : FlowId)
  | image (i : ImageId)
  deriving DecidableEq, Repr

/-- The requesters: flows whose FIFO is not empty and images in CHECKING (R105), each kind ascending. This look at the
images' state is no read that checks parity (log 26). -/
def State.requesters (s : State) : List Requester :=
  (allFlows.filter fun f => !(s.flow f).fifo.isEmpty).map .flow
    ++ (allImages.filter fun i => (s.image i).state == .checking).map .image

/-- The rank of a requester: its level, then a flow before an image, then its number (R107). This look at the level is
no read that checks parity (log 26). An image in CHECKING whose damaged level reads absent ranks at level 0: the rules
give it no level (log 30). -/
def State.rank (s : State) : Requester → Nat
  | .flow f => (s.flow f).params.level * 32 + f.val
  | .image i => (s.image i).level.getD 0 * 32 + 16 + i.val

/-- The first member of least rank. -/
def leastBy {α : Type} (rank : α → Nat) : List α → Option α
  | [] => none
  | a :: rest =>
    match leastBy rank rest with
    | none => some a
    | some b => if rank b < rank a then some b else some a

/-- The requester R107 chooses. -/
def State.nextRequester (s : State) : Option Requester := leastBy s.rank s.requesters

/-- A slice begins for a requester. -/
def State.beginSlice (s : State) : Requester → State
  | .flow f => s.beginFlowSlice f
  | .image i => s.beginImageSlice i

/-- At a slice's completion the next slice begins for the requester chosen, or the engine becomes IDLE (R106). -/
def State.nextSlice (s : State) : State :=
  match s.nextRequester with
  | none => { s with engine := none }
  | some r => s.beginSlice r

/-- A requester that appears while the engine is IDLE gets a slice at once; otherwise it waits (R106, R107). -/
def State.wakeEngine (s : State) (r : Requester) : State :=
  match s.engine with
  | none => s.beginSlice r
  | some _ => s

/-! ## Alerts of a flow -/

/-- The report of a flow's ending, with the hold causes held just before it (R67). -/
def FlowCtx.report (c : FlowCtx) (b : Binding) (before : HoldCauses) : FlowReport :=
  { target := b.target, image := b.image, state := c.state, condition := c.condition,
    activationUnknown := c.activationUnknown, holds := before, lastVerdict := c.lastVerdict,
    lastRefusal := c.lastRefusal, failures := c.failures, late := c.late }

/-- Queue the FLOW alert of a flow that has just ended (R67). -/
def State.flowAlert (s : State) (f : FlowId) (before : HoldCauses) : State :=
  match (s.flow f).binding with
  | some b => s.queueAlert (.flow f ((s.flow f).report b before))
  | none => s

/-- The remaining bytes of a flow (R38). -/
def FlowCtx.remaining (c : FlowCtx) : Nat :=
  match c.openRegion with
  | some o => o.length - c.acceptedBytes
  | none => 0

/-- Queue the PROGRESS alert of a flow (R46). -/
def State.progressAlert (s : State) (f : FlowId) : State :=
  let c := s.flow f
  match c.binding, c.openRegion with
  | some b, some o =>
    s.queueAlert (.progress f
      { target := b.target, region := o.region, lastAccepted := c.lastAccepted.getD 0,
        acceptedBlocks := c.acceptedBlocks, acceptedBytes := c.acceptedBytes, remaining := c.remaining })
  | _, _ => s

/-! ## Entry to FAILED, failures, parcel endings (C3 section 3.9, C4) -/

/-- What a flow holds on entering FAILED (R63, R64, R121). -/
def FlowCtx.failed (c : FlowCtx) (k : Condition) : FlowCtx :=
  { c with
    condition := some k, record := none, pendingReq := none, holds := HoldCauses.empty, openRegion := none,
    state := .failed,
    activationUnknown :=
      c.activationUnknown || (c.state == .activating && (k == .windowLapsed || k == .windowClosed)) }

/-- A flow at work enters FAILED: its cells go back to the pool, its slice is abandoned, its gate request is
withdrawn, and a FLOW alert is queued; a flow not at work stays as it is (R63). -/
def State.failFlow (s : State) (f : FlowId) (k : Condition) : State :=
  let before := (s.flow f).holds
  if (s.flow f).state.atWork then
    ((((s.freeFlowCells f).abandonFlowSlice f).withdrawGate f).mapFlow f (·.failed k)).flowAlert f before
  else s

/-- One consecutive failure is counted; at the retry limit the flow fails, after the refusal of the failure (R58,
R59). -/
def State.countFailure (s : State) (f : FlowId) : State :=
  let s := s.mapFlow f fun c => { c with failures := c.failures + 1 }
  if (s.flow f).failures = (s.flow f).params.retryLimit then s.offersComeFirst.failFlow f .retryLimit
  else s

/-- The parcel record of a flow. -/
def State.setRecord (s : State) (f : FlowId) (r : Option ParcelRecord) : State :=
  s.mapFlow f fun c => { c with record := r }

/-- The last verdict of a flow (R13). -/
def State.setVerdict (s : State) (f : FlowId) (v : Verdict) : State :=
  s.mapFlow f fun c => { c with lastVerdict := some v }

/-- The cells and the slice of an ending parcel: the cells go back to the pool and the slice is abandoned
(R101, R113). -/
def State.dropParcelWork (s : State) (f : FlowId) : State := (s.freeFlowCells f).abandonFlowSlice f

/-- Whether an INSPECTED parcel's final frame has been taken: its next roll index and gap deadline are absent and
the frame is held (R86). -/
def FlowCtx.finalTaken (c : FlowCtx) : Bool := c.held.isSome

/-- The record an ended INSPECTED parcel leaves: absent when its final frame had been taken, REFUSED when it had not
(R89, R134). -/
def recordAfterEnd (finalTaken : Bool) : Option ParcelRecord := if finalTaken then none else some .refused

/-- An INSPECTED parcel ends BROKEN with refusal BROKEN, detail 5 (R89). `finalTaken` is false while carriers of the
parcel are still to come (log 12). -/
def State.endBroken (s : State) (f : FlowId) (n : TargetId) (finalTaken : Bool) : State :=
  let s := (s.dropParcelWork f).refuse n UpdateCode.block.code .broken 0x05
  ((s.setVerdict f .broken).setRecord f (recordAfterEnd finalTaken)).countFailure f

/-- An INSPECTED parcel ends silently BROKEN, leaving the given record (R7, R73). -/
def State.endSilently (s : State) (f : FlowId) (r : Option ParcelRecord) : State :=
  ((s.dropParcelWork f).setVerdict f .broken).setRecord f r

/-- A GATED request ends without its answer: the held cell goes back and the gate request is withdrawn (R73, R96,
R134, R136). -/
def State.dropGated (s : State) (f : FlowId) : State :=
  ((s.freeFlowCells f).withdrawGate f).setRecord f none

/-- A table fault fails the flow at an admission read or at the placing of a held frame: the fault flag, the refusal
and then the failure; a BLOCK is refused CHECK_FAILED with detail 6 and its last verdict becomes TABLE_FAULT, any
other request is refused ENDED (R81). -/
def State.tableFault (s : State) (f : FlowId) (n : TargetId) (k : FaultFlag) (code : UpdateCode) : State :=
  let s := s.raiseFault k
  let s := match code with
    | .block => (s.refuse n code.code .checkFailed 0x06).setVerdict f .tableFault
    | _ => s.refuse n code.code .ended 0x00
  s.failFlow f .tableFault

/-! ## The pending request (R47) -/

/-- The request state of a forwarded request; a BLOCK leaves the flow in LOADING (R40). -/
def PendingKind.state : PendingKind → FlowState
  | .erase _ => .erasing
  | .open_ _ => .opening
  | .block _ _ _ => .loading
  | .close _ => .closing
  | .abandon _ => .abandoning
  | .activate => .activating

/-- A pending request keeps the open region but for ABANDON, at which it becomes absent (R47). -/
def PendingKind.keepsOpen : PendingKind → Bool
  | .abandon _ => false
  | _ => true

/-- The pending request begins: deadline now plus the response time, and the flow moves to its request state
(R47). -/
def State.beginPending (s : State) (f : FlowId) (k : PendingKind) : State :=
  s.mapFlow f fun c =>
    { c with
      pendingReq := some ⟨k, s.now + ms c.params.responseTime⟩, state := k.state,
      openRegion := if k.keepsOpen then c.openRegion else none }

end Sys2Proof.Machine
end

