-- ==== Sys2Proof/Machine/FlowControl.lean ====
section
/-! DEFINITION. The flow controller (C3): target responses, the outcomes of a pending request, late responses and
the deadline of a pending request, for PENDING_DEADLINE_EXPIRY. -/

namespace Sys2Proof.Machine

/-! ## Outcomes (C3 section 3.6) -/

/-- Set the state of a region of the flow's image (R44). -/
def State.setRegion (s : State) (f : FlowId) (r : Nat) (k : RegionState) : State :=
  s.mapFlow f fun c => { c with binding := c.binding.map fun b => { b with regions := b.regions.set r k } }

/-- The pending request is cleared (R48, R50). -/
def State.clearPending (s : State) (f : FlowId) : State := s.mapFlow f fun c => { c with pendingReq := none }

/-- The flow moves to a state. -/
def State.setFlowState (s : State) (f : FlowId) (k : FlowState) : State := s.mapFlow f fun c => { c with state := k }

/-- The open region becomes absent and the flow returns to IDLE (R54). -/
def State.closeToIdle (s : State) (f : FlowId) : State :=
  s.mapFlow f fun c => { c with openRegion := none, state := .idle }

/-- OPEN answered positively: the region is OPEN, the open region and the progress fields start afresh, the
accumulator is preset and the flow is LOADING (R45, R52). -/
def State.opened (s : State) (f : FlowId) (o : OpenRegion) : State :=
  (s.setRegion f o.region .opened).mapFlow f fun c =>
    { c with
      openRegion := some o, expectedSeq := 1, lastAccepted := none, acceptedBlocks := 0, acceptedBytes := 0,
      sinceProgress := 0, acc := accPreset, state := .loading }

/-- The count of blocks since the last progress alert goes up, and a PROGRESS alert is queued at the interval; with
an interval of 0 the count stays at 0 (R46). -/
def State.countProgress (s : State) (f : FlowId) : State :=
  let interval := (s.flow f).params.progressInterval
  if interval = 0 then s
  else
    let s := s.mapFlow f fun c => { c with sinceProgress := c.sinceProgress + 1 }
    if (s.flow f).sinceProgress = interval then
      (s.progressAlert f).mapFlow f fun c => { c with sinceProgress := 0 }
    else s

/-- A positive response to the expected BLOCK (R53). -/
def State.acceptBlock (s : State) (f : FlowId) (seq : Byte) (dataLength : Nat) : State :=
  (s.mapFlow f fun c =>
    { c with
      acceptedBlocks := c.acceptedBlocks + 1, acceptedBytes := c.acceptedBytes + dataLength,
      lastAccepted := some seq, expectedSeq := seq + 1, failures := 0 }).countProgress f

/-- Whether a CLOSE answered positively finds the open region complete (R54). -/
def FlowCtx.complete (c : FlowCtx) : Bool :=
  match c.openRegion with
  | some o => c.acceptedBlocks == o.checkCount && c.acceptedBytes == o.length
  | none => false

/-- ACTIVATE answered positively: the flow enters DONE and its FLOW alert is queued (R65). -/
def State.finish (s : State) (f : FlowId) : State :=
  let before := (s.flow f).holds
  (s.mapFlow f fun c => { c with holds := HoldCauses.empty, state := .done }).flowAlert f before

/-- The outcome of a positive response (R51 to R56). The pending request has been cleared. -/
def State.onPositive (s : State) (f : FlowId) : PendingKind → State
  | .erase r => (s.setRegion f r .erased).setFlowState f .idle
  | .open_ o => s.opened f o
  | .block seq n isRepeat => if isRepeat then s else s.acceptBlock f seq n
  | .close r => (s.setRegion f r (if (s.flow f).complete then .verified else .short)).closeToIdle f
  | .abandon r => (s.setRegion f r .blank).setFlowState f .idle
  | .activate => s.finish f

/-- The outcome of a target refusal (R51 to R56). The pending request has been cleared. -/
def State.onRefusal (s : State) (f : FlowId) : PendingKind → State
  | .erase r => (s.setRegion f r .blank).setFlowState f .idle
  | .open_ _ => s.setFlowState f .idle
  | .block _ _ _ => s.countFailure f
  | .close r => (s.setRegion f r .short).closeToIdle f
  | .abandon r => (s.setRegion f r .short).setFlowState f .idle
  | .activate => s.setFlowState f .idle

/-- The outcome of a deadline expiry (R51 to R56). The pending request has been cleared. -/
def State.onExpiry (s : State) (f : FlowId) : PendingKind → State
  | .erase r => (s.setRegion f r .blank).setFlowState f .idle
  | .open_ _ => s.setFlowState f .idle
  | .block _ _ _ => s.countFailure f
  | .close r => (s.setRegion f r .short).closeToIdle f
  | .abandon r => (s.setRegion f r .short).setFlowState f .idle
  | .activate => s.failFlow f .noResponse

/-! ## Responses (C3 section 3.5) -/

/-- The response matches the pending request (R48). -/
def PendingKind.answeredBy (k : PendingKind) : Response → Bool
  | .positive code echo =>
    code == k.code + 0x20 && (match k with
      | .block seq _ _ => echo == seq
      | _ => true)
  | .refusal code _ => code == k.code
  | .wait code => code == k.code

/-- A matching response acts (R48, R49). -/
def State.matchResponse (s : State) (f : FlowId) (p : PendingReq) : Response → State
  | .positive _ _ => (s.clearPending f).onPositive f p.kind
  | .refusal _ reason =>
    ((s.mapFlow f fun c => { c with lastRefusal := some reason }).clearPending f).onRefusal f p.kind
  | .wait _ =>
    s.mapFlow f fun c =>
      { c with pendingReq := some { p with deadline := s.now + ms c.params.waitExtension } }

/-- The late response an unmatched response leaves, when it names an update request (R57). -/
def lateOf : Response → Option LateResponse
  | .positive code _ => some ⟨code, none⟩
  | .refusal code reason => if (UpdateCode.ofByte code).isSome then some ⟨0xF1, some reason⟩ else none
  | .wait code => if (UpdateCode.ofByte code).isSome then some ⟨0xF2, none⟩ else none

/-- An unmatched response becomes the late response, replacing an earlier one (R57). -/
def State.lateResponse (s : State) (f : FlowId) (r : Response) : State :=
  match lateOf r with
  | some l => s.mapFlow f fun c => { c with late := some l }
  | none => s

/-- The flow controller takes a response of a class (R48). -/
def State.takeResponse (s : State) (f : FlowId) (r : Response) : State :=
  match (s.flow f).pendingReq with
  | some p => if p.kind.answeredBy r then s.matchResponse f p r else s.lateResponse f r
  | none => s.lateResponse f r

/-- A target refusal that is a WHOLE ends the parcel in transit of a flow's record: INSPECTED before its final frame
silently BROKEN, PASSING to REFUSED (R7, R89). -/
def State.refusalEndsRecord (s : State) (f : FlowId) : State :=
  match (s.flow f).record with
  | some (.inspected _) => if (s.flow f).finalTaken then s else s.endSilently f (some .refused)
  | some (.passing _ _) => s.setRecord f (some .refused)
  | _ => s

/-- A target refusal that is a WHOLE ends the parcel in transit at the target's tracker and at the record of its bound
flow (R7). -/
def State.targetRefusal (s : State) (n : TargetId) : State :=
  let s := s.setTracker n .none
  match s.boundFlow n with
  | some f => s.refusalEndsRecord f
  | none => s

/-- A dialogue response frame: it ends a parcel when it is a WHOLE refusal, is matched when the target has a flow,
and is offered to TRUNK (R1, R7, R48, R144). Where the response also queues an alert that could move (R46, R65, R67), the
rules leave open which joins first, and so does the model (log 28). -/
def State.dialogueResponse (s : State) (n : TargetId) (frame : CanFrame) : State :=
  let s := if isWholeRefusal frame then s.targetRefusal n else s
  let s := match s.boundFlow n, responseOf frame with
    | some f, some r => s.takeResponse f r
    | _, _ => s
  s.offerTrunk .dialogue frame

/-! ## The deadline of a pending request -/

/-- The deadline of the flow's pending request stands and the time has reached it (R50). -/
def State.pendingDue (s : State) (f : FlowId) : Bool :=
  match (s.flow f).pendingReq with
  | some p => p.deadline ≤ s.now
  | none => false

/-- The deadline expires: the pending request is cleared and its expiry outcome applies (R50). -/
def State.pendingExpiry (s : State) (f : FlowId) : State :=
  match (s.flow f).pendingReq with
  | some p => if p.deadline ≤ s.now then (s.clearPending f).onExpiry f p.kind else s
  | none => s

end Sys2Proof.Machine
end

