-- ==== Sys2Proof/Machine/Inspector.lean ====
section
/-! DEFINITION. The parcel inspector at a frame's arrival (C4 sections 4.3 to 4.8): replacement, other dialogue,
admission, inspected parcels and gated requests; and the gap deadline, for
GAP_DEADLINE_EXPIRY. -/

namespace Sys2Proof.Machine

/-- The segment port of a target. -/
def State.segPort (s : State) (n : TargetId) : Port := (s.target n).segment.port

/-- There is dialogue room in the target's segment queue (R156). -/
def State.segRoom (s : State) (n : TargetId) : Bool := s.room (s.segPort n) .dialogue

/-- A frame joins the target's segment queue as a dialogue frame. -/
def State.toSegment (s : State) (n : TargetId) (frame : CanFrame) : State := s.enqueue (s.segPort n) .dialogue frame

/-! ## Replacement and other dialogue -/

/-- What a new WHOLE or OPENER does to the parcel the record holds (R73). -/
def State.replaceRecord (s : State) (f : FlowId) : State :=
  match (s.flow f).record with
  | some (.inspected _) => s.endSilently f none
  | some (.gated _) => s.dropGated f
  | some (.passing _ _) => s.setRecord f none
  | some .refused => s.setRecord f none
  | none => s

/-- The record after a first frame that was refused or dropped: REFUSED for an OPENER, absent for a WHOLE
(R74, R82). -/
def recordAfterRefusal (frame : CanFrame) : Option ParcelRecord :=
  if frameKind frame = .opener then some .refused else none

/-- The record after a first frame of other dialogue was forwarded (R74). -/
def recordAfterForward (frame : CanFrame) : Option ParcelRecord :=
  if frameKind frame = .opener then some (.passing (openerLength frame) 61) else none

/-- A first frame of other dialogue (R74). -/
def State.otherDialogue (s : State) (f : FlowId) (n : TargetId) (frame : CanFrame) : State :=
  if firstMalformed frame then s.setRecord f (recordAfterRefusal frame)
  else if s.segRoom n then (s.toSegment n frame).setRecord f (recordAfterForward frame)
  else s.setRecord f (recordAfterRefusal frame)

/-! ## Refusals at admission (R82) -/

/-- A refusal at admission: one refusal, and the record REFUSED or absent (R82). -/
def State.refuseFirst (s : State) (f : FlowId) (n : TargetId) (frame : CanFrame) (reason : Reason) (detail : Byte) :
    State :=
  (s.refuse n (requestCode frame) reason detail).setRecord f (recordAfterRefusal frame)

/-- A malformed first frame of an update request: BROKEN, detail 5, and for a BLOCK the verdict and one failure
(R77). -/
def State.brokenFirst (s : State) (f : FlowId) (n : TargetId) (frame : CanFrame) (code : UpdateCode) : State :=
  let s := s.refuseFirst f n frame .broken 0x05
  match code with
  | .block => (s.setVerdict f .broken).countFailure f
  | _ => s

/-- An early verdict: CHECK_FAILED with the verdict code, the verdict recorded and one failure counted (R84). -/
def State.earlyVerdict (s : State) (f : FlowId) (n : TargetId) (frame : CanFrame) (v : Verdict) : State :=
  ((s.refuseFirst f n frame .checkFailed (BitVec.ofNat 8 v.code)).setVerdict f v).countFailure f

/-! ## Requests forwarded at admission (R83) -/

/-- An admitted OPEN, CLOSE or ABANDON joins the segment queue and its pending request begins; without room it is
refused BROKEN, detail 5 (R83). The segment is read from the target entry (R81; log 22). -/
def State.forwardRequest (s : State) (f : FlowId) (n : TargetId) (frame : CanFrame) (code : UpdateCode)
    (k : PendingKind) : State :=
  if (s.target n).parityBad then s.tableFault f n .target code
  else if s.segRoom n then ((s.toSegment n frame).beginPending f k).setRecord f none
  else s.refuseFirst f n frame .broken 0x05

/-! ## Gated requests (R93) -/

/-- An admitted ERASE or ACTIVATE becomes GATED, or is refused BROKEN, detail 5, when no cell is given (R93). -/
def State.gate (s : State) (f : FlowId) (n : TargetId) (frame : CanFrame) (g : Gated) : State :=
  match s.cellFor f with
  | none => s.refuseFirst f n frame .broken 0x05
  | some c =>
    ((s.fillCell c ⟨frame.data, none, some ⟨frame.data.length, frame.brs⟩⟩).mapFlow f fun x =>
      { x with held := some c, record := some (.gated g) }).gateRequest f

/-! ## Address and region checks (R78, R79) -/

/-- What the address checks of an ERASE or OPEN find (R78, R81): a refusal, a table fault, or the region whose window
holds the range. -/
inductive RangeFinding where
  | layout
  | targetFault
  | guarded
  | imageFault
  | outOfWindow
  | region (r : Nat) (x : Region)
  deriving DecidableEq, Repr

/-- The loaded regions of an image with their numbers, ascending (R26). -/
def ImageRecord.regions (r : ImageRecord) : List (Nat × Region) :=
  r.usedSlots.zipIdx.filterMap fun p => p.1.region.map fun x => (p.2, x)

/-- A parity error in the image record or in the slot of a region (R37, R81; log 23). -/
def ImageRecord.readBad (r : ImageRecord) : Bool := !r.bad.isEmpty || r.usedSlots.any (·.parityBad)

/-- The image record of a flow's binding; a flow without a binding reaches no admission check. -/
def State.imageOf (s : State) (f : FlowId) : ImageRecord :=
  match (s.flow f).binding with
  | some b => s.image b.image
  | none => ImageRecord.reset

/-- A range touches a present guard window of the target (R78). -/
def TargetEntry.guards (e : TargetEntry) (address length : Nat) : Bool :=
  (match e.guard0 with
    | some w => w.touches address length
    | none => false) ||
  (match e.guard1 with
    | some w => w.touches address length
    | none => false)

/-- The address checks, in order (R78). -/
def State.rangeFinding (s : State) (f : FlowId) (n : TargetId) (address length : Nat) : RangeFinding :=
  if length = 0 then .layout
  else if (s.target n).parityBad then .targetFault
  else if (s.target n).guards address length then .guarded
  else if (s.imageOf f).readBad then .imageFault
  else
    match (s.imageOf f).regions.find? fun p => p.2.contains address length with
    | some (r, x) => .region r x
    | none => .outOfWindow

/-- The address field of an ERASE or OPEN (R8). -/
def rangeAddress (frame : CanFrame) : Nat := fieldAt frame.data 3 4

/-- The length field of an ERASE or OPEN (R8). -/
def rangeLength (frame : CanFrame) : Nat := fieldAt frame.data 7 4

/-- The block length field of an OPEN (R8). -/
def openBlockLength (frame : CanFrame) : Nat := fieldAt frame.data 11 2

/-- A fatal refusal: it is sent, and then the flow fails with the condition of the same name (R78). -/
def State.refuseFatal (s : State) (f : FlowId) (n : TargetId) (frame : CanFrame) (reason : Reason) (k : Condition) :
    State :=
  ((s.refuseFirst f n frame reason 0x00).offersComeFirst).failFlow f k

/-- The state of region `r` in the flow (R44). -/
def FlowCtx.regionState (c : FlowCtx) (r : Nat) : RegionState :=
  match c.binding with
  | some b => b.regions.getD r .blank
  | none => .blank

/-- The request-specific checks of ERASE after its form: address, region, supply (R80). -/
def State.admitErase (s : State) (f : FlowId) (n : TargetId) (frame : CanFrame) : State :=
  match s.rangeFinding f n (rangeAddress frame) (rangeLength frame) with
  | .layout => s.refuseFirst f n frame .layout 0x00
  | .targetFault => s.tableFault f n .target .erase
  | .guarded => s.refuseFatal f n frame .guarded .guarded
  | .imageFault => s.tableFault f n .image .erase
  | .outOfWindow => s.refuseFatal f n frame .outOfWindow .outOfWindow
  | .region r x =>
    if rangeAddress frame ≠ x.base ∨ rangeLength frame < x.length then s.refuseFirst f n frame .layout 0x00
    else if s.supply.state = .low then s.refuseFirst f n frame .supply 0x00
    else s.gate f n frame (.erase r)

/-- The request-specific checks of OPEN after its form: address, region (R80). -/
def State.admitOpen (s : State) (f : FlowId) (n : TargetId) (frame : CanFrame) : State :=
  match s.rangeFinding f n (rangeAddress frame) (rangeLength frame) with
  | .layout => s.refuseFirst f n frame .layout 0x00
  | .targetFault => s.tableFault f n .target .open_
  | .guarded => s.refuseFatal f n frame .guarded .guarded
  | .imageFault => s.tableFault f n .image .open_
  | .outOfWindow => s.refuseFatal f n frame .outOfWindow .outOfWindow
  | .region r x =>
    if rangeAddress frame ≠ x.base ∨ rangeLength frame ≠ x.length ∨ openBlockLength frame ≠ x.blockLength then
      s.refuseFirst f n frame .layout 0x00
    else if x.erase ∧ (s.flow f).regionState r ≠ .erased then s.refuseFirst f n frame .order 0x00
    else s.forwardRequest f n frame .open_ (.open_ ⟨r, x.length, x.blockLength, x.checkCount⟩)

/-- Every region state of the flow is VERIFIED (R80). -/
def FlowCtx.allVerified (c : FlowCtx) : Bool :=
  match c.binding with
  | some b => b.regions.all (· == .verified)
  | none => false

/-- The request-specific checks of ACTIVATE after its form: supply, not verified (R80). -/
def State.admitActivate (s : State) (f : FlowId) (n : TargetId) (frame : CanFrame) : State :=
  if s.supply.state = .low then s.refuseFirst f n frame .supply 0x00
  else if !(s.flow f).allVerified then s.refuseFirst f n frame .notVerified 0x00
  else s.gate f n frame .activate

/-- The number of the open region, which LOADING holds (R47). -/
def FlowCtx.openNumber (c : FlowCtx) : Nat :=
  match c.openRegion with
  | some o => o.region
  | none => 0

/-! ## Inspected parcels (R84 to R89) -/

/-- What the BLOCK checks find: an early verdict, or the block index and the repeat flag (R84). -/
inductive BlockFinding where
  | early (v : Verdict)
  | admitted (index : Nat) (isRepeat : Bool)
  deriving DecidableEq, Repr

/-- The overrun and underrun checks of a block index (R84 steps 2 and 3). -/
def blockLengthFinding (o : OpenRegion) (index : Nat) (isRepeat : Bool) (dataLength : Nat) : BlockFinding :=
  if !isRepeat && o.checkCount ≤ index then .early .overrun
  else if o.expectedLength index < dataLength then .early .overrun
  else if dataLength < o.expectedLength index then .early .underrun
  else .admitted index isRepeat

/-- The BLOCK checks against the open region, in order (R84). -/
def FlowCtx.blockFinding (c : FlowCtx) (o : OpenRegion) (seq : Byte) (dataLength : Nat) : BlockFinding :=
  if seq = c.expectedSeq then blockLengthFinding o c.acceptedBlocks false dataLength
  else if c.lastAccepted = some seq then blockLengthFinding o (c.acceptedBlocks - 1) true dataLength
  else .early .sequence

/-- The sequence of a BLOCK: payload byte 1 of its first frame (R84). -/
def blockSeq (frame : CanFrame) : Byte := byteAt frame.data (payloadStart frame + 1)

/-- The data length of a BLOCK: payload length minus 2 (R9). -/
def blockDataLength (frame : CanFrame) : Nat := parcelLength frame - 2

/-- What a cell is filled with: the data bytes of a non-final frame, or the final frame whole (R98). -/
def inspectedContent (frame : CanFrame) (span : FoldSpan) (final : Bool) : CellContent :=
  if final then ⟨frame.data, some span, some ⟨frame.data.length, frame.brs⟩⟩
  else ⟨spanBytes frame.data span, some ⟨0, span.count⟩, none⟩

/-- The final frame ends the roll index and the gap deadline of the record (R72, R86). -/
def Inspected.finalised (p : Inspected) : Inspected := { p with nextRoll := none, gapDeadline := none }

/-- The cell joins the tail of the FIFO; a final frame's cell is also the held frame (R86, R100). -/
def FlowCtx.joinCell (c : FlowCtx) (x : CellId) (p : Inspected) (final : Bool) : FlowCtx :=
  if final then
    { c with fifo := c.fifo ++ [x], held := some x, record := some (.inspected p.finalised) }
  else { c with fifo := c.fifo ++ [x], record := some (.inspected p) }

/-- A non-final frame is placed in the segment queue and sets the gap deadline; without room the parcel ends BROKEN
(R86 steps 3 and 4). -/
def State.passInspected (s : State) (f : FlowId) (n : TargetId) (frame : CanFrame) (p : Inspected) : State :=
  if (s.target n).parityBad then s.tableFault f n .target .block
  else if s.segRoom n then
    (s.toSegment n frame).setRecord f
      (some (.inspected { p with gapDeadline := some (s.now + ms (s.flow f).params.gapLimit) }))
  else s.endBroken f n false

/-- A frame of an INSPECTED parcel that has passed its own checks is taken (R86). `p` is the record with this frame's
payload bytes counted. -/
def State.takeInspected (s : State) (f : FlowId) (n : TargetId) (frame : CanFrame) (p : Inspected) (span : FoldSpan) :
    State :=
  let final := p.declared ≤ p.seen
  match s.cellFor f with
  | none => (s.setRecord f (some (.inspected p))).endBroken f n final
  | some c =>
    let s := (s.fillCell c (inspectedContent frame span final)).mapFlow f fun x => x.joinCell c p final
    let s := s.wakeEngine (.flow f)
    if final then s else s.passInspected f n frame p

/-- A BLOCK that passed its checks becomes INSPECTED at its first frame (R85). -/
def State.startInspected (s : State) (f : FlowId) (n : TargetId) (frame : CanFrame) (index : Nat) (isRepeat : Bool) :
    State :=
  let opener := frameKind frame == .opener
  let p : Inspected :=
    { declared := parcelLength frame, seen := if opener then 61 else parcelLength frame,
      nextRoll := if opener then some 1 else none, gapDeadline := none, seq := blockSeq frame,
      dataLength := blockDataLength frame, isRepeat := isRepeat, checkIndex := index }
  (s.mapFlow f fun c => { c with acc := accPreset }).takeInspected f n frame p (firstSpan frame)

/-- The request-specific checks of BLOCK after its form (R84). LOADING holds an open region (R40); without one there
is no block to expect. -/
def State.admitBlock (s : State) (f : FlowId) (n : TargetId) (frame : CanFrame) : State :=
  match (s.flow f).openRegion with
  | none => s.refuseFirst f n frame .order 0x00
  | some o =>
    match (s.flow f).blockFinding o (blockSeq frame) (blockDataLength frame) with
    | .early v => s.earlyVerdict f n frame v
    | .admitted index isRepeat => s.startInspected f n frame index isRepeat

/-- A carrier of an INSPECTED parcel before its final frame (R87). -/
def State.inspectedCarrier (s : State) (f : FlowId) (n : TargetId) (frame : CanFrame) (p : Inspected) : State :=
  let share := carrierShare p.declared p.seen
  if carrierUnreadable frame then s.endBroken f n false
  else if p.nextRoll ≠ some (rollIndex frame) then s.endBroken f n false
  else if carrierRoom frame < share then s.endBroken f n false
  else
    s.takeInspected f n frame { p with seen := p.seen + share, nextRoll := some (rollIndex frame + 1) } ⟨1, share⟩

/-! ## Admission (R76) -/

/-- The update requests taken in a flow state (R76 step 4). -/
def FlowState.takes : FlowState → UpdateCode → Bool
  | .idle, .erase => true
  | .idle, .open_ => true
  | .idle, .activate => true
  | .loading, .block => true
  | .loading, .close => true
  | .loading, .abandon => true
  | _, _ => false

/-- The request-specific checks after the form (R80). -/
def State.admitSpecific (s : State) (f : FlowId) (n : TargetId) (frame : CanFrame) : UpdateCode → State
  | .erase => s.admitErase f n frame
  | .open_ => s.admitOpen f n frame
  | .block => s.admitBlock f n frame
  | .close => s.forwardRequest f n frame .close (.close (s.flow f).openNumber)
  | .abandon => s.forwardRequest f n frame .abandon (.abandon (s.flow f).openNumber)
  | .activate => s.admitActivate f n frame

/-- The admission checks, in order (R76, R77). -/
def State.judgeAdmission (s : State) (f : FlowId) (n : TargetId) (frame : CanFrame) (code : UpdateCode) : State :=
  let c := s.flow f
  if c.state = .done ∨ c.state = .failed then s.refuseFirst f n frame .ended 0x00
  else if c.holds.supply then s.refuseFirst f n frame .supply 0x00
  else if c.holds.master then s.refuseFirst f n frame .held 0x00
  else if c.pendingReq.isSome then s.refuseFirst f n frame .overlap 0x00
  else if !c.state.takes code then s.refuseFirst f n frame .order 0x00
  else if firstMalformed frame then s.brokenFirst f n frame code
  else if illFormed code frame then s.refuseFirst f n frame .layout 0x00
  else s.admitSpecific f n frame code

/-! ## The record takes a frame (R73 to R75) -/

/-- A WHOLE or OPENER, well-formed or malformed: the old parcel ends, and the new one is judged by its request code
(R73, R74). -/
def State.recordFirst (s : State) (f : FlowId) (n : TargetId) (frame : CanFrame) : State :=
  let s := s.replaceRecord f
  match UpdateCode.ofByte (requestCode frame) with
  | none => s.otherDialogue f n frame
  | some code => s.judgeAdmission f n frame code

/-- A carrier of a PASSING record (R75). -/
def State.passingCarrier (s : State) (f : FlowId) (n : TargetId) (frame : CanFrame) (declared seen : Nat) : State :=
  if carrierUnreadable frame then s.setRecord f (some .refused)
  else if s.segRoom n then
    let seen := seen + min (carrierShare declared seen) (carrierRoom frame)
    (s.toSegment n frame).setRecord f (if declared ≤ seen then none else some (.passing declared seen))
  else s.setRecord f (some .refused)

/-- A carrier by what the record holds (R75). -/
def State.recordCarrier (s : State) (f : FlowId) (n : TargetId) (frame : CanFrame) : State :=
  match (s.flow f).record with
  | some (.passing declared seen) => s.passingCarrier f n frame declared seen
  | some (.inspected p) => if (s.flow f).finalTaken then s else s.inspectedCarrier f n frame p
  | some (.gated _) => s
  | some .refused => s
  | none => s

/-- A dialogue request frame at a flow's record (R73, R75). -/
def State.recordTakes (s : State) (f : FlowId) (n : TargetId) (frame : CanFrame) : State :=
  match frameKind frame with
  | .whole => s.recordFirst f n frame
  | .opener => s.recordFirst f n frame
  | .carrier => s.recordCarrier f n frame
  | .pace => s.offer (s.segPort n) .dialogue frame

/-! ## The gap deadline (R88) -/

/-- The flow's record is INSPECTED with a gap deadline that the time has reached (R88). -/
def State.gapDue (s : State) (f : FlowId) : Bool :=
  match (s.flow f).record with
  | some (.inspected p) => p.gapDeadline.any (· ≤ s.now)
  | _ => false

/-- The gap deadline expires and the parcel ends BROKEN (R88, R89). A deadline is present only before the final
frame. -/
def State.gapExpiry (s : State) (f : FlowId) : State :=
  if s.gapDue f then
    match (s.flow f).target with
    | some n => s.endBroken f n (s.flow f).finalTaken
    | none => s
  else s

end Sys2Proof.Machine
end

