-- ==== Sys2Proof/Machine/Tracker.lean ====
section
/-! DEFINITION. The target trackers (C4 section 4.2). -/

namespace Sys2Proof.Machine

/-- The tracker after a first frame that was not forwarded: NONE after a WHOLE, REFUSED after an OPENER (R70). -/
def trackerAfterRefusal (frame : CanFrame) : Tracker := if frameKind frame = .opener then .refused else .none

/-- The tracker after a first frame that was forwarded: NONE after a WHOLE, PASSING after an OPENER (R70). -/
def trackerAfterForward (frame : CanFrame) : Tracker := if frameKind frame = .opener then .passing else .none

/-- Why a tracker refuses an update request (R70). -/
def State.trackerReason (s : State) : Reason :=
  match s.window.state with
  | .closed => .windowClosed
  | .opened => .unbound

/-- A tracker takes a WHOLE or OPENER (R70). -/
def State.trackerFirst (s : State) (n : TargetId) (frame : CanFrame) : State :=
  if (UpdateCode.ofByte (requestCode frame)).isSome then
    (s.refuse n (requestCode frame) s.trackerReason 0x00).setTracker n (trackerAfterRefusal frame)
  else if firstMalformed frame then s.setTracker n (trackerAfterRefusal frame)
  else if s.segRoom n then (s.toSegment n frame).setTracker n (trackerAfterForward frame)
  else s.setTracker n (trackerAfterRefusal frame)

/-- A tracker takes a CARRIER by its state (R71). -/
def State.trackerCarrier (s : State) (n : TargetId) (frame : CanFrame) : State :=
  match (s.target n).tracker with
  | .none => s
  | .refused => s
  | .passing =>
    if carrierUnreadable frame then s.setTracker n .none
    else if s.segRoom n then s.toSegment n frame
    else s.setTracker n .refused

/-- A dialogue request frame at a tracker (R70, R71). -/
def State.trackerTakes (s : State) (n : TargetId) (frame : CanFrame) : State :=
  match frameKind frame with
  | .whole => s.trackerFirst n frame
  | .opener => s.trackerFirst n frame
  | .carrier => s.trackerCarrier n frame
  | .pace => s.offer (s.segPort n) .dialogue frame

end Sys2Proof.Machine
end

