-- ==== Sys2Proof/Machine/Arrival.lean ====
section
/-! DEFINITION. The frame classifier and the route table lookup (C8 sections 8.2, 8.3), and the record choice
(R68), for FRAME_ARRIVAL. -/

namespace Sys2Proof.Machine

/-! ## Management frames (R142) -/

/-- The most request frames the management request queue holds (R159). -/
def requestQueueSize : Nat := 4

/-- A request frame from TRUNK joins the tail of the request queue, or is discarded when the queue is full
(R142, R159). -/
def State.joinRequests (s : State) (frame : CanFrame) : State :=
  if s.mgmt.queue.length < requestQueueSize then
    { s with mgmt := { s.mgmt with queue := s.mgmt.queue ++ [frame] } }
  else s

/-- A frame with a management identifier (R142). -/
def State.managementFrame (s : State) (port : Port) (frame : CanFrame) : State :=
  if frame.id = requestId s.strap ∧ port = .trunk then s.joinRequests frame else s

/-! ## Plain frames (R143, R145) -/

/-- A plain frame is offered to one port (R143). -/
def State.offerPlainTo (frame : CanFrame) (s : State) : Port → State
  | .trunk => s.offerTrunk .plain frame
  | p => s.offer p .plain frame

/-- A plain frame is offered to each port of a list; each port judges its copy by itself (R143). -/
def State.offerPlain (s : State) (ports : List Port) (frame : CanFrame) : State :=
  ports.foldl (State.offerPlainTo frame) s

/-- All ports but one. -/
def portsBut (p : Port) : List Port := allPorts.filter (· != p)

/-- A frame matches a route entry (R147). -/
def RouteEntry.hits (e : RouteEntry) (port : Port) (id : CanId) : Bool :=
  e.format == id.format && e.ingress.has port && (id.value &&& e.matchMask) == (e.matchValue &&& e.matchMask)

/-- Route numbers ascending. -/
def allRoutes : List RouteId := List.finRange 96

/-- The lookup: VALID entries ascending, a damaged one marked DAMAGED and passed over, up to the first match
(R147). -/
def State.lookup (s : State) (port : Port) (id : CanId) : List RouteId → State × Option RouteEntry
  | [] => (s, none)
  | n :: rest =>
    if (s.route n).state = .valid then
      if (s.route n).parityBad then
        State.lookup ((s.setRoute n { s.route n with state := .damaged }).raiseFault .route) port id rest
      else if (s.route n).hits port id then (s, some (s.route n))
      else State.lookup s port id rest
    else State.lookup s port id rest

/-- The ports a plain frame goes to in ROUTING mode: the first matching entry decides, else the default action
(R145). -/
def egressPorts (default : DefaultAction) (port : Port) : Option RouteEntry → List Port
  | some e =>
    match e.cls with
    | .plain => (portsBut port).filter fun p => e.egress.has p
    | .blocked => []
  | none =>
    match default with
    | .flood => portsBut port
    | .drop => []

/-- A frame that names no target in ROUTING mode (R145). Where a damaged entry on the way to its route queues a FAULT
alert, which of the two takes a slot of TRUNK first is open (log 28). -/
def State.routeFrame (s : State) (port : Port) (frame : CanFrame) : State :=
  let found := s.lookup port frame.id allRoutes
  found.1.offerPlain (egressPorts found.1.defaultAction port found.2) frame

/-! ## Dialogue frames (R144) -/

/-- The VALID target entries whose parity is wrong (R24), taken in ascending number (log 27). -/
def State.damagedTargets (s : State) : List TargetId :=
  allTargets.filter fun n => (s.target n).state == .valid && (s.target n).parityBad

/-- The classifier finds a damaged target entry: the TARGET flag, and the bound flow at work fails (R24). -/
def State.classifierFault (s : State) (n : TargetId) : State :=
  let s := s.raiseFault .target
  match s.boundFlow n with
  | some f => s.failFlow f .tableFault
  | none => s

/-- The VALID target that an identifier names as its request identifier (R20). -/
def State.requestTarget (s : State) (id : CanId) : Option TargetId :=
  allTargets.find? fun n => (s.target n).state == .valid && (s.target n).request == id

/-- The VALID target that an identifier names as its response identifier (R20). -/
def State.responseTarget (s : State) (id : CanId) : Option TargetId :=
  allTargets.find? fun n => (s.target n).state == .valid && (s.target n).response == id

/-- The record that takes a dialogue request frame: the bound flow's while the window is OPEN, the tracker otherwise
(R68). -/
def State.dialogueRequest (s : State) (n : TargetId) (frame : CanFrame) : State :=
  match s.window.state, s.boundFlow n with
  | .opened, some f => s.recordTakes f n frame
  | _, _ => s.trackerTakes n frame

/-- A frame in ROUTING mode that is not a management frame (R144, R145). -/
def State.routingFrame (s : State) (port : Port) (frame : CanFrame) : State :=
  if s.damagedTargets.isEmpty then
    match s.requestTarget frame.id with
    | some n => if port = .trunk then s.dialogueRequest n frame else s
    | none =>
      match s.responseTarget frame.id with
      | some n => if port = s.segPort n then s.dialogueResponse n frame else s
      | none => s.routeFrame port frame
  else s.damagedTargets.foldl State.classifierFault s

/-- The classifier takes an arrival whole (R142 to R145). -/
def State.classify (s : State) (port : Port) (frame : CanFrame) : State :=
  if frame.id ∈ managementIds s.strap then s.managementFrame port frame
  else
    match s.mode with
    | .passthrough => s.offerPlain (portsBut port) frame
    | .routing => s.routingFrame port frame

/-- A frame received without error takes 1 from the receive error count, not below 0 (R151, R152). -/
def PortUnit.received (u : PortUnit) : PortUnit := { u with rxErrors := u.rxErrors - 1 }.judged

/-- A frame received without error at a port in ACTIVE or PASSIVE; a port in OFF or RECOVERING receives none
(R151). -/
def State.arrival (s : State) (port : Port) (frame : CanFrame) : State :=
  if (s.port port).conf.carries then (s.setPort port (s.port port).received).classify port frame else s

end Sys2Proof.Machine
end

