-- ==== Sys2Proof/Machine/Ports.lean ====
section
/-! DEFINITION. The port units (C8 section 8.4): error counts, transmission attempts, entering OFF, recovery and
restart, for RECEPTION_ERROR, TRANSMISSION_ATTEMPT_START, TRANSMISSION_SUCCESS, ARBITRATION_LOST, TRANSMISSION_ERROR and
RECOVERY_COMPLETE. -/

namespace Sys2Proof.Machine

/-! ## Counts and attempts (R151, R152) -/

/-- A reception that ends in an error adds 1 to the receive error count, to at most 255 (R151). -/
def PortUnit.receiveFailed (u : PortUnit) : PortUnit := { u with rxErrors := min 255 (u.rxErrors + 1) }.judged

/-- A reception error at a port that receives (R151). -/
def State.receptionError (s : State) (p : Port) : State :=
  if (s.port p).conf.carries then s.setPort p (s.port p).receiveFailed else s

/-- The frame of the attempt in progress (R151, log 19). -/
def PortUnit.sendingFrame (u : PortUnit) : Option QueuedFrame := u.queue.find? (·.sending)

/-- The head of the queue is marked as being transmitted. -/
def markHead : List QueuedFrame → List QueuedFrame
  | [] => []
  | q :: rest => { q with sending := true } :: rest

/-- No frame of the queue is being transmitted. -/
def unmark (l : List QueuedFrame) : List QueuedFrame := l.map fun q => { q with sending := false }

/-- An attempt begins with the frame at the head of the queue (R151). -/
def State.attemptStart (s : State) (p : Port) : State :=
  if (s.port p).conf.carries && (s.port p).sendingFrame.isNone then
    s.setPort p { s.port p with queue := markHead (s.port p).queue }
  else s

/-- The in-flight mark is cleared when an alert frame leaves the TRUNK queue (R168). -/
def State.clearInFlight (s : State) (left : List QueuedFrame) : State :=
  if left.any (fun q => q.cls == .generated .alert) then { s with alerts := { s.alerts with inFlight := false } } else s

/-- The port after a successful attempt: the frame leaves, and 1 is taken from the transmit error count (R151). -/
def PortUnit.sent (u : PortUnit) : PortUnit :=
  { u with queue := u.queue.eraseP (·.sending), txErrors := u.txErrors - 1 }.judged

/-- A successful attempt (R151, R168). -/
def State.transmissionSuccess (s : State) (p : Port) : State :=
  match (s.port p).sendingFrame with
  | some q => (s.setPort p (s.port p).sent).clearInFlight [q]
  | none => s

/-- The rate of a frame's data field as it leaves a port: the data rate for a CAN FD frame with bit-rate switching, the
nominal rate for every other frame (R150). The rest of a frame leaves at the nominal rate. -/
def PortUnit.dataFieldRate (u : PortUnit) (f : CanFrame) : NominalRate ⊕ DataRate :=
  if f.fd && f.brs then .inr u.dataRate else .inl u.nominal

/-! ## Entering OFF (R153) -/

/-- What a port's emptied queue does to a flow on the segment: an INSPECTED parcel ends BROKEN, a GATED request is
discarded with refusal BROKEN, detail 5 (R153 step 2, R96). -/
def State.loseWork (s : State) (f : FlowId) (n : TargetId) : State :=
  match (s.flow f).record with
  | some (.inspected _) => s.endBroken f n (s.flow f).finalTaken
  | some (.gated g) => (s.dropGated f).refuse n g.code .broken 0x05
  | some (.passing _ _) => s
  | some .refused => s
  | none => s

/-- The target entry of a non-FREE flow is read for its segment (R153 step 2). -/
def State.portReadsFlow (p : Port) (s : State) (f : FlowId) : State :=
  if (s.flow f).state = .free then s
  else
    match (s.flow f).target with
    | none => s
    | some n =>
      if (s.target n).parityBad then (s.raiseFault .target).failFlow f .tableFault
      else if s.segPort n = p then s.loseWork f n
      else s

/-- The transmit queue of a port is emptied (R153 step 1, R154, R168). -/
def State.emptyQueue (s : State) (p : Port) : State :=
  (s.setPort p { s.port p with queue := [] }).clearInFlight (s.port p).queue

/-- The flows after a port's queue was emptied: for a segment step 2 of R153, for TRUNK no change (step 3). -/
def State.flowsAfterEmptying (s : State) (p : Port) : State :=
  match p with
  | .trunk => s
  | _ => allFlows.foldl (State.portReadsFlow p) s

/-- A reply waiting in the slot when TRUNK enters OFF is discarded (R161). -/
def State.dropReply (s : State) (p : Port) : State :=
  match p with
  | .trunk => { s with mgmt := { s.mgmt with slot := none } }
  | _ => s

/-- The confinement state a port takes on entering OFF: RECOVERING at once with auto-recovery on (R154). -/
def PortUnit.off (u : PortUnit) : PortUnit :=
  { u with conf := if u.autoRecovery then .recovering else .off, recessiveRuns := 0 }

/-- A port enters OFF (R153, R154, R161). -/
def State.enterOff (s : State) (p : Port) : State :=
  let s := s.emptyQueue p
  let s := s.setPort p { s.port p with conf := .off }
  let s := (s.flowsAfterEmptying p).dropReply p
  s.setPort p (s.port p).off

/-- The port after a failed attempt: the frame stays queued, and 8 is added to the transmit error count (R151). -/
def PortUnit.sendFailed (u : PortUnit) : PortUnit := { u with queue := unmark u.queue, txErrors := u.txErrors + 8 }

/-- A failed attempt; a transmit error count that passes 255 takes the port to OFF (R151, R152). -/
def State.transmissionError (s : State) (p : Port) : State :=
  if (s.port p).sendingFrame.isSome then
    let s := s.setPort p (s.port p).sendFailed
    if 255 < (s.port p).txErrors then s.enterOff p else s.setPort p (s.port p).judged
  else s

/-! ## Recovery and restart (R154) -/

/-- The port with both counts 0, ACTIVE, and no recessive runs (R154). -/
def PortUnit.active (u : PortUnit) : PortUnit :=
  { u with txErrors := 0, rxErrors := 0, conf := .active, recessiveRuns := 0 }

/-- The number of runs of 11 recessive bits a recovery takes (R154). -/
def recoveryRuns : Nat := 128

/-- A RECOVERING port has observed its runs of recessive bits (R154). -/
def PortUnit.recovered (u : PortUnit) : Bool := u.conf == .recovering && recoveryRuns ≤ u.recessiveRuns

/-- A RECOVERING port that has observed its runs completes its recovery (R154, log 18). -/
def State.recoveryComplete (s : State) (p : Port) : State :=
  if (s.port p).recovered then s.setPort p (s.port p).active else s

/-- A restart of a port: the queue is emptied, with the effects on the flows of R153 when the port was ACTIVE or
PASSIVE; the counts become 0 and the state ACTIVE (R154). -/
def State.restart (s : State) (p : Port) : State :=
  let wasCarrying := (s.port p).conf.carries
  let s := s.emptyQueue p
  let s := if wasCarrying then s.flowsAfterEmptying p else s
  s.setPort p (s.port p).active

end Sys2Proof.Machine
end

