-- ==== Sys2Proof/Machine/Responder.lean ====
section
/-! DEFINITION. The management responder (C9 sections 9.2, 9.4): taking a request, forming its reply, and moving
replies and alerts to TRUNK, and what joins TRUNK at an event. REPLY_ENQUEUE, ALERT_MOVE, REQUEST_WITHOUT_TAG, UNKNOWN. -/

namespace Sys2Proof.Machine

/-! ## Replies (R15, R160, R161) -/

/-- Bytes 2 and 3 of a reply, and the result fields (R15). -/
def Answer.bytes : Answer → List Byte
  | .done fields => [0x00, 0x00] ++ fields
  | .refused .busy => [0x02, 0x03]
  | .refused r => 0x01 :: b1 r.code

/-- The reply frame to a request frame (R15, R17). -/
def replyFrame (strap : BitVec 3) (request : CanFrame) (a : Answer) : CanFrame :=
  generatedFrame (replyId strap) ([byteAt request.data 0, byteAt request.data 1] ++ a.bytes)

/-- The reply is formed and placed in the reply slot; while TRUNK is OFF or RECOVERING it is discarded at once
(R160 step 4, R161). -/
def State.reply (s : State) (request : CanFrame) (a : Answer) : State :=
  if (s.port .trunk).conf.carries then
    { s with mgmt := { s.mgmt with slot := some (replyFrame s.strap request a) } }
  else s

/-- A reply waits and there is room for it (R161). -/
def State.replyReady (s : State) : Bool := s.mgmt.slot.isSome && s.room .trunk (.generated .reply)

/-- A waiting reply joins the TRUNK queue when there is room, and the responder becomes READY (R161). -/
def State.replyEnqueue (s : State) : State :=
  match s.mgmt.slot with
  | none => s
  | some frame =>
    if s.room .trunk (.generated .reply) then
      ({ s with mgmt := { s.mgmt with slot := none } }).enqueue .trunk (.generated .reply) frame
    else s

/-! ## Alert frames (R16, R18, R168) -/

/-- The value of a late response's code, 0 when absent (R18). -/
def lateCode (l : Option LateResponse) : Nat := l.elim 0 fun x => x.code.toNat

/-- The value of a late response's reason, 0 when absent or not a refusal (R18). -/
def lateReason (l : Option LateResponse) : Nat := l.elim 0 fun x => x.reason.elim 0 BitVec.toNat

/-- Bytes 2 onward of a FLOW alert (R18). -/
def FlowReport.bytes (r : FlowReport) : List Byte :=
  [r.target.val, r.image.val, r.state.code, r.condition.elim 0 Condition.code, r.flags,
    r.lastVerdict.elim 0xFF Verdict.code, r.lastRefusal.elim 0 BitVec.toNat, r.failures, lateCode r.late,
    lateReason r.late].flatMap b1

/-- Bytes 2 onward of a PROGRESS alert (R18). -/
def ProgressReport.bytes (r : ProgressReport) : List Byte :=
  b1 r.target.val ++ b1 r.region ++ [r.lastAccepted] ++ be 2 r.acceptedBlocks ++ be 4 r.acceptedBytes
    ++ be 4 r.remaining

/-- The code of a closure cause (R124). -/
def ClosureCause.code : ClosureCause → Nat
  | .lapsed => 1
  | .closed => 2

/-- The data field of an alert frame before padding: kind, key, fields (R16, R18). -/
def Alert.bytes : Alert → List Byte
  | .flow f r => b1 1 ++ b1 f.val ++ r.bytes
  | .progress f r => b1 2 ++ b1 f.val ++ r.bytes
  | .image i state tag computed byParity =>
    b1 3 ++ b1 i.val ++ b1 state.code ++ be 4 tag.toNat ++ be 4 computed.toNat ++ bBool byParity
  | .supply new previous value => b1 4 ++ b1 0 ++ b1 new.code ++ b1 previous.code ++ be 2 value
  | .window cause failed => b1 5 ++ b1 0 ++ b1 cause.code ++ b1 failed
  | .fault flags => b1 6 ++ b1 0 ++ b1 flags.byte

/-- The frame of an alert (R16, R17). -/
def alertFrame (strap : BitVec 3) (a : Alert) : CanFrame := generatedFrame (alertId strap) a.bytes

/-- The head alert can move: an entry waits, the in-flight mark is clear and there is room (R168). -/
def State.alertReady (s : State) : Bool :=
  !s.alerts.entries.isEmpty && !s.alerts.inFlight && s.room .trunk (.generated .alert)

/-- The head entry of the alert queue moves to the TRUNK queue (R168). -/
def State.alertMove (s : State) : State :=
  match s.alerts.entries with
  | [] => s
  | a :: rest =>
    if s.alertReady then
      ({ s with alerts := ⟨rest, true⟩ }).enqueue .trunk (.generated .alert) (alertFrame s.strap a)
    else s

/-! ## What joins TRUNK at an event (R162) -/

/-- What can take a free slot of TRUNK at an event: the next frame the event offered, a waiting reply, the head alert. -/
inductive TrunkClaim where
  | offer
  | reply
  | alert
  deriving DecidableEq, Repr

/-- The head alert can move, and no offered frame is to come before it (R59, R78, R134, R168). -/
def State.alertClaims (s : State) : Bool := s.alertReady && s.offers.all fun x => !x.ahead

/-- The claims on a slot of TRUNK while the event has offered a frame (R162). -/
def State.trunkClaims (s : State) : List TrunkClaim :=
  [.offer] ++ (if s.replyReady then [.reply] else []) ++ (if s.alertClaims then [.alert] else [])

/-- The order in which the claims are taken decides what joins (R162), or what goes first (R155): a reply or an alert can
move as well, and the free slots are not enough for all, or an offered frame carries a management identifier. -/
def State.contested (s : State) : Bool :=
  1 < s.trunkClaims.length
    && (33 < (s.port .trunk).queue.length + s.offers.length + s.trunkClaims.length
      || s.offers.any fun x => (managementIds s.strap).contains x.frame.id)

/-- The next frame the event offered joins TRUNK when there is room, and is dropped otherwise (R97, R156). -/
def State.offerJoins (s : State) : State :=
  match s.offers with
  | [] => s
  | x :: rest => ({ s with offers := rest }).offer .trunk x.cls x.frame

/-- One claim is taken. -/
def State.takeClaim (s : State) : TrunkClaim → State
  | .offer => s.offerJoins
  | .reply => s.replyEnqueue
  | .alert => s.alertMove

/-- The next offered frame joins; where the order decides, one of the claims is taken, chosen freely (R162, log 28). -/
def State.trunkTakesOne (s : State) : State :=
  if s.contested then
    match s.trunkClaims[Config.firstTaken s.freeCount % s.trunkClaims.length]? with
    | some c => ({ s with freeCount := s.freeCount + 1 }).takeClaim c
    | none => s
  else s.offerJoins

/-- Up to `n` of these, until every offered frame has joined or was dropped. -/
def State.trunkTakesFor : Nat → State → State
  | 0, s => s
  | n + 1, s => if s.offers.isEmpty then s else State.trunkTakesFor n s.trunkTakesOne

/-- The event ends: each frame it offered to TRUNK joins or is dropped, and a reply or an alert may come between (R162).
One reply and one alert can come, since the one that moves leaves the slot empty and the mark set. -/
def State.trunkTakes (s : State) : State := State.trunkTakesFor (s.offers.length + 2) s

/-! ## Taking a request (R14, R160) -/

/-- The head frame leaves the request queue (R160 step 1). -/
def State.dropHead (s : State) : State := { s with mgmt := { s.mgmt with queue := s.mgmt.queue.tail } }

/-- The frame a READY responder takes next (R160). -/
def State.nextFrame (s : State) : Option CanFrame := if s.ready then s.mgmt.queue.head? else none

/-- A frame that holds a request code and a tag (R14). -/
def tagged (frame : CanFrame) : Bool := 2 ≤ frame.data.length

/-- The request a frame names (R14, R163). -/
def requestNamed (frame : CanFrame) : Option Request := Request.ofByte (byteAt frame.data 0)

/-- The frame is long enough for the request's parameters (R14). -/
def Request.fits (r : Request) (frame : CanFrame) : Bool := 2 + r.paramBytes frame.data ≤ frame.data.length

/-- The parameter bytes of a request frame, from byte 2 (R14). -/
def paramsOf (frame : CanFrame) : List Byte := frame.data.drop 2

/-- The responder takes the head frame when it names this request, carries it out with the frame's parameters, and
forms the reply; a frame too short for the parameters is refused BAD_VALUE (R14, R160). The frames that the request
offers to TRUNK (the refusals of a PORT SET) join when the reply waits (R162). The command has no effect when
the responder is WAITING or the head frame is another request (log 1, log 4). -/
def State.takeRequest (s : State) (r : Request) (carry : List Byte → State → State × Answer) : State :=
  match s.nextFrame with
  | none => s
  | some frame =>
    if tagged frame && requestNamed frame == some r then
      if r.fits frame then
        let out := carry (paramsOf frame) s.dropHead
        (out.1.reply frame out.2).trunkTakes
      else s.dropHead.reply frame (.refused .badValue)
    else s

/-- A request refused: nothing changes but what the answer says. -/
def State.refused (s : State) (r : MgmtReason) : State × Answer := (s, .refused r)

/-- A request carried out with its result fields. -/
def State.done (s : State) (fields : List Byte) : State × Answer := (s, .done fields)

/-! ## The rows of the responder -/

/-- The responder removes a head frame of data length 0 or 1 without a reply (R14, R160). -/
def State.requestWithoutTag (s : State) : State :=
  match s.nextFrame with
  | none => s
  | some frame => if tagged frame then s else s.dropHead

/-- REQUEST_WITHOUT_TAG (R14). -/
def execRequestWithoutTag (t : Time) (s : State) : Host.Outcome State Fault Refusal :=
  s.event t fun s => s.requestWithoutTag

/-- The responder refuses UNKNOWN a head frame whose code R163 does not list (R14). -/
def State.unknownRequest (s : State) : State :=
  match s.nextFrame with
  | none => s
  | some frame =>
    if tagged frame && (requestNamed frame).isNone then s.dropHead.reply frame (.refused .unknown) else s

/-- UNKNOWN (R14, R163). -/
def execUnknown (t : Time) (s : State) : Host.Outcome State Fault Refusal :=
  s.event t fun s => s.unknownRequest

/-- REPLY_ENQUEUE (R161). -/
def execReplyEnqueue (t : Time) (s : State) : Host.Outcome State Fault Refusal :=
  s.event t fun s => s.replyEnqueue

/-- ALERT_MOVE (R168). -/
def execAlertMove (t : Time) (s : State) : Host.Outcome State Fault Refusal :=
  s.event t fun s => s.alertMove

end Sys2Proof.Machine
end

