-- ==== Sys2Proof/Machine/FlowRequests.lean ====
section
/-! DEFINITION. The management requests of the flow contexts: FLOW_BIND, FLOW_RELEASE, FLOW_HOLD, FLOW_RESUME,
FLOW_QUERY (C3, C9). -/

namespace Sys2Proof.Machine

/-! ## The bound parameters (R41) -/

/-- One bound parameter: its default when its mask bit is set, else the value of its byte when that is in range
(R41). -/
def boundParam (mask byte : Byte) (bit : Nat) (inRange : Nat → Bool) (value : Nat → Nat) (default : Nat) :
    Option Nat :=
  if mask.getLsbD bit then some default else if inRange byte.toNat then some (value byte.toNat) else none

/-- The seven bound parameters, from byte 4 of FLOW BIND (R41). -/
def paramsFrom (p : List Byte) : Option FlowParams :=
  let m := byteAt p 3
  match boundParam m (byteAt p 4) 0 (· ≤ 7) id 3,
    boundParam m (byteAt p 5) 1 (· ≤ 15) (fun v => if v = 0 then 16 else v) 4,
    boundParam m (byteAt p 6) 2 (fun _ => true) id 0, boundParam m (byteAt p 7) 3 (· != 0) (10 * ·) 200,
    boundParam m (byteAt p 8) 4 (· != 0) (100 * ·) 5000, boundParam m (byteAt p 9) 5 (· != 0) (10 * ·) 1000,
    boundParam m (byteAt p 10) 6 (fun v => 8 ≤ v && v ≤ 128) id 48 with
  | some level, some retry, some progress, some response, some wait, some gap, some quota =>
    some
      { level := level, retryLimit := retry, progressInterval := progress, responseTime := response,
        waitExtension := wait, gapLimit := gap, cellQuota := quota }
  | _, _, _, _, _, _, _ => none

/-- The parameters in the encoding of R41 (R165). -/
def FlowParams.bytes (q : FlowParams) : List Byte :=
  [q.level, if q.retryLimit = 16 then 0 else q.retryLimit, q.progressInterval, q.responseTime / 10,
    q.waitExtension / 100, q.gapLimit / 10, q.cellQuota].flatMap b1

/-! ## FLOW BIND (R42) -/

/-- The flow a bind leaves (R42). -/
def boundContext (b : Binding) (critical : Bool) : FlowCtx :=
  { FlowCtx.reset with state := .idle, binding := some b, holds := ⟨false, critical⟩ }

/-- The reference count of an image changed (R36). The count itself is not bounded here: one that an upset changed goes
up and down from what it holds (log 24). -/
def State.mapReferences (s : State) (i : ImageId) (g : Nat → Nat) : State :=
  s.setImage i { s.image i with refCount := g (s.image i).refCount }

/-- A flow is bound (R42). -/
def State.bind (s : State) (f : FlowId) (n : TargetId) (i : ImageId) (q : FlowParams) : State :=
  let b : Binding :=
    { target := n, image := i, params := q, regions := List.replicate ((s.image i).regionCount.getD 0) .blank }
  ((s.setFlow f (boundContext b (s.supply.state == .critical))).mapReferences i (· + 1)).setTracker n .none

/-- FLOW BIND from its step 4 on: the target entry and then the image (R42, R24, R37). -/
def State.bindChecked (s : State) (f : FlowId) (n : TargetId) (i : ImageId) (q : FlowParams) : State × Answer :=
  let e := s.target n
  let badImage := (s.image i).bad.contains .state || (s.image i).bad.contains .regionCount
  if e.state = .valid ∧ e.parityBad then (s.raiseFault .target).refused .busy
  else if e.state ≠ .valid ∨ (s.boundFlow n).isSome then s.refused .busy
  else if badImage then (s.raiseFault .image).refused .order
  else if (s.image i).state ≠ .ready then s.refused .order
  else (s.bind f n i q).done []

/-- FLOW BIND is judged and carried out (R42). -/
def State.carryFlowBind (p : List Byte) (s : State) : State × Answer :=
  match below 16 (fieldAt p 0 1) with
  | none => s.refused .badValue
  | some f =>
    if s.window.state = .closed ∨ (s.flow f).state ≠ .free then s.refused .order
    else
      match below 32 (fieldAt p 1 1), below 16 (fieldAt p 2 1), paramsFrom p with
      | some n, some i, some q => s.bindChecked f n i q
      | _, _, _ => s.refused .badValue

/-- FLOW_BIND (R41, R42). -/
def execFlowBind (t : Time) (s : State) : Host.Outcome State Fault Refusal :=
  s.event t fun s => s.takeRequest .flowBind State.carryFlowBind

/-! ## FLOW RELEASE (R43) -/

/-- What a flow's release does to the target and the image of its binding (R43). A damaged reference count that reads 0
stays 0 (log 24). -/
def State.unbind (s : State) (b : Binding) : State := (s.mapReferences b.image (· - 1)).setTracker b.target .none

/-- A flow is released (R43). -/
def State.releaseFlow (s : State) (f : FlowId) : State :=
  let binding := (s.flow f).binding
  let s := (((s.freeFlowCells f).abandonFlowSlice f).withdrawGate f).removeAlert (.flow f)
  let s := match binding with
    | some b => s.unbind b
    | none => s
  s.setFlow f FlowCtx.reset

/-- FLOW RELEASE is judged and carried out (R43). -/
def State.carryFlowRelease (p : List Byte) (s : State) : State × Answer :=
  match below 16 (fieldAt p 0 1) with
  | none => s.refused .badValue
  | some f =>
    if (s.flow f).state = .free then s.refused .order else (s.releaseFlow f).done (b1 (s.flow f).state.code)

/-- FLOW_RELEASE (R43). -/
def execFlowRelease (t : Time) (s : State) : Host.Outcome State Fault Refusal :=
  s.event t fun s => s.takeRequest .flowRelease State.carryFlowRelease

/-! ## FLOW HOLD and FLOW RESUME (R61, R62) -/

/-- MASTER is added to or removed from a flow's hold causes, and the reply gives the set (R61, R62). -/
def State.setMaster (s : State) (f : FlowId) (v : Bool) : State × Answer :=
  let holds := { (s.flow f).holds with master := v }
  (s.mapFlow f fun c => { c with holds := holds }).done (b1 holds.byte)

/-- FLOW HOLD is judged and carried out (R61). -/
def State.carryFlowHold (p : List Byte) (s : State) : State × Answer :=
  match below 16 (fieldAt p 0 1) with
  | none => s.refused .badValue
  | some f => if (s.flow f).state.atWork then s.setMaster f true else s.refused .order

/-- FLOW_HOLD (R61). -/
def execFlowHold (t : Time) (s : State) : Host.Outcome State Fault Refusal :=
  s.event t fun s => s.takeRequest .flowHold State.carryFlowHold

/-- FLOW RESUME is judged and carried out (R62). -/
def State.carryFlowResume (p : List Byte) (s : State) : State × Answer :=
  match below 16 (fieldAt p 0 1) with
  | none => s.refused .badValue
  | some f => if (s.flow f).state.atWork then s.setMaster f false else s.refused .order

/-- FLOW_RESUME (R62). -/
def execFlowResume (t : Time) (s : State) : Host.Outcome State Fault Refusal :=
  s.event t fun s => s.takeRequest .flowResume State.carryFlowResume

/-! ## FLOW QUERY (R165) -/

/-- Target, image, parameters, region count and the eight region states of a flow (R165). -/
def bindingFields : Option Binding → List Byte
  | none => b1 0xFF ++ b1 0xFF ++ be 7 0 ++ b1 0 ++ List.replicate 8 0xFF
  | some b =>
    b1 b.target.val ++ b1 b.image.val ++ b.params.bytes ++ b1 b.regions.length
      ++ (List.range 8).flatMap fun k => b1 (b.regions[k]?.elim 0xFF RegionState.code)

/-- The sequence of a pending BLOCK, 0 otherwise (R165). -/
def PendingKind.seq : PendingKind → Byte
  | .block seq _ _ => seq
  | _ => 0

/-- Pending code, sequence and time left (R165). -/
def pendingFields (now : Time) : Option PendingReq → List Byte
  | none => b1 0 ++ b1 0 ++ be 2 0
  | some p => [p.kind.code, p.kind.seq] ++ be 2 (msLeft p.deadline now)

/-- The result fields of FLOW QUERY (R165). -/
def FlowCtx.fields (c : FlowCtx) (now : Time) : List Byte :=
  b1 c.state.code ++ bindingFields c.binding ++ b1 (c.openRegion.elim 0xFF OpenRegion.region) ++ [c.expectedSeq]
    ++ [c.lastAccepted.getD 0] ++ be 2 c.acceptedBlocks ++ be 4 c.acceptedBytes ++ be 4 c.remaining
    ++ pendingFields now c.pendingReq ++ b1 (parcelCode c.record) ++ b1 c.heldCells.length ++ b1 c.holds.byte
    ++ b1 c.failures ++ b1 (c.lastVerdict.elim 0xFF Verdict.code) ++ [c.lastRefusal.getD 0]
    ++ b1 (c.condition.elim 0 Condition.code) ++ b1 c.flags ++ b1 (lateCode c.late) ++ b1 (lateReason c.late)

/-- FLOW QUERY is judged and carried out (R165, R169). -/
def State.carryFlowQuery (p : List Byte) (s : State) : State × Answer :=
  match below 16 (fieldAt p 0 1) with
  | none => s.refused .badValue
  | some f => (s.removeAlert (.flow f)).done ((s.flow f).fields s.now)

/-- FLOW_QUERY (R165). -/
def execFlowQuery (t : Time) (s : State) : Host.Outcome State Fault Refusal :=
  s.event t fun s => s.takeRequest .flowQuery State.carryFlowQuery

end Sys2Proof.Machine
end

