-- ==== Sys2Proof/Machine/Engine.lean ====
section
/-! DEFINITION. The check engine at a slice's completion (C5 sections 5.4 to 5.6, C2 section 2.4): folding, the
compare and the verdict, and the end of a self-check, for FLOW_SLICE_COMPLETE and IMAGE_SLICE_COMPLETE. -/

namespace Sys2Proof.Machine

/-! ## The verdict (R90, R91) -/

/-- A held frame as it is sent on: the request identifier of the flow's target, with the data and the bit-rate
switching the cell kept (R98). -/
def State.heldFrame (s : State) (n : TargetId) (x : CellContent) : CanFrame :=
  { id := (s.target n).request, fd := true,
    brs := (match x.frame with
      | some i => i.brs
      | none => false),
    data := x.bytes }

/-- MATCH: the held frame joins the segment queue and the pending BLOCK begins; without room the parcel ends BROKEN
(R90). The target entry is read for its segment and request identifier (R81). -/
def State.releaseBlock (s : State) (f : FlowId) (n : TargetId) (p : Inspected) (x : CellContent) : State :=
  if (s.target n).parityBad then s.tableFault f n .target .block
  else if s.segRoom n then
    let s := (s.toSegment n (s.heldFrame n x)).beginPending f (.block p.seq p.dataLength p.isRepeat)
    ((s.freeFlowCells f).setVerdict f .matched).setRecord f none
  else s.endBroken f n true

/-- MISMATCH: the cells go back to the pool, CHECK_FAILED with detail 1 is sent and one failure is counted (R91). -/
def State.mismatch (s : State) (f : FlowId) (n : TargetId) : State :=
  let s := (s.freeFlowCells f).refuse n UpdateCode.block.code .checkFailed 0x01
  ((s.setVerdict f .mismatch).setRecord f none).countFailure f

/-! ## The compare (R109 to R111) -/

/-- A parity error in what the compare reads of the image: its extent, or the slots below the open region
(R109 step 2). -/
def ImageRecord.locateBad (r : ImageRecord) (region : Nat) : Bool :=
  r.bad.contains .extent || (r.slots.toList.take region).any (·.parityBad)

/-- The index of a block's check list entry: extent first index, check offset of the region, check index (R26,
R109). -/
def ImageRecord.checkEntryIndex (r : ImageRecord) (region checkIndex : Nat) : Nat :=
  (r.extent.getD ⟨0, 0⟩).first + checkOffset r.slots region + checkIndex

/-- The compare, once the last cell is folded (R109 to R111). `x` is the held frame as the slice read it. -/
def State.compare (s : State) (f : FlowId) (n : TargetId) (p : Inspected) (x : CellContent) : State :=
  let r := s.imageOf f
  let region := (s.flow f).openNumber
  if r.locateBad region then s.tableFault f n .image .block
  else
    let entry := s.checkList.read (r.checkEntryIndex region p.checkIndex)
    if entry.parityBad then s.tableFault f n .checklist .block
    else if crcFinal (s.flow f).acc = entry.value then s.releaseBlock f n p x
    else s.mismatch f n

/-! ## Flow slices (R108, R109) -/

/-- The bytes of a cell's fold span. -/
def CellContent.folded (x : CellContent) : List Byte :=
  match x.span with
  | some d => spanBytes x.bytes d
  | none => []

/-- The head cell's bytes are folded and it leaves the FIFO (R108, R109). -/
def FlowCtx.foldHead (c : FlowCtx) (x : CellContent) : FlowCtx :=
  { c with acc := crcFold c.acc x.folded, fifo := c.fifo.tail }

/-- A flow slice's result (R102, R108, R109). `x` is the cell as it was read at the slice's beginning. -/
def State.flowSliceResult (s : State) (f : FlowId) (cell : CellId) (x : Cell) : State :=
  match (s.flow f).target, (s.flow f).record with
  | some n, some (.inspected p) =>
    if x.parityBad then (s.raiseFault .cell).endBroken f n (s.flow f).finalTaken
    else
      let s := s.mapFlow f (·.foldHead x.content)
      if (s.flow f).held = some cell then s.compare f n p x.content else s.freeCell cell
  | _, _ => s

/-- A flow slice completes: its result applies unless it was abandoned, and the engine goes on (R106, R113). -/
def State.flowSliceComplete (s : State) : State :=
  match s.engine with
  | some ⟨.flow f c x, abandoned⟩ => (if abandoned then s else s.flowSliceResult f c x).nextSlice
  | some ⟨.image _ _ _ _, _⟩ => s
  | none => s

/-! ## Image slices (R32, R33, R112) -/

/-- The fields of a record written at some event carry fresh parity after it (log 8). -/
def ImageRecord.refreshed (r : ImageRecord) (fields : List ImageField) : ImageRecord :=
  { r with bad := r.bad.filter fun k => !fields.contains k }

/-- The self-check of an image ends (R33). -/
def State.endSelfCheck (s : State) (i : ImageId) (result : ImageState) (computed : Word) (byParity : Bool) : State :=
  let r := s.image i
  let s := s.setImage i ({ r with state := result, progress := none, acc := none }.refreshed [.state])
  s.queueAlert (.image i result r.tag computed byParity)

/-- The self-check ends by a parity error (R33). -/
def State.selfCheckFault (s : State) (i : ImageId) (k : FaultFlag) : State :=
  (s.raiseFault k).endSelfCheck i .defective 0 true

/-- The compare that ends a self-check (R33). The expected manifest check is a field of the record and its read
checks parity (log 20). -/
def State.selfCheckCompare (s : State) (i : ImageId) : State :=
  let r := s.image i
  let computed := crcFinal (r.acc.getD accPreset)
  if r.bad.contains .expected then s.selfCheckFault i .image
  else s.endSelfCheck i (if r.expected = some computed then .ready else .defective) computed false

/-- The part of the serialization a slice took is folded and the progress goes on (R32). -/
def ImageRecord.foldSlice (r : ImageRecord) (bytes : List Byte) (entries : Nat) : ImageRecord :=
  { r with acc := some (crcFold (r.acc.getD accPreset) bytes), progress := some (r.progress.getD 0 + entries) }

/-- The progress has reached the extent's count (R33). -/
def ImageRecord.checked (r : ImageRecord) : Bool := (r.extent.getD ⟨0, 0⟩).count ≤ r.progress.getD 0

/-- An image slice's result (R32, R33, R112). The extent's count is read again here, for the end of the self-check, and
that read checks parity (log 20). -/
def State.imageSliceResult (s : State) (i : ImageId) (bytes : List Byte) (entries : Nat) (error : Option FaultFlag) :
    State :=
  match error with
  | some k => s.selfCheckFault i k
  | none =>
    if (s.image i).bad.contains .extent then s.selfCheckFault i .image
    else
      let s := s.setImage i ((s.image i).foldSlice bytes entries)
      if (s.image i).checked then s.selfCheckCompare i else s

/-- An image slice completes: its result applies unless it was abandoned, and the engine goes on (R106, R113). -/
def State.imageSliceComplete (s : State) : State :=
  match s.engine with
  | some ⟨.image i b n e, abandoned⟩ => (if abandoned then s else s.imageSliceResult i b n e).nextSlice
  | some ⟨.flow _ _ _, _⟩ => s
  | none => s

end Sys2Proof.Machine
end

