-- ==== Sys2Proof/Machine/ImageRequests.lean ====
section
/-! DEFINITION. The management requests of the manifest memory: IMAGE_BEGIN, IMAGE_REGION, IMAGE_CHECKS, IMAGE_END,
IMAGE_DISCARD, IMAGE_QUERY (C2 sections 2.2 to 2.6). -/

namespace Sys2Proof.Machine

/-! ## The reads and checks the loading requests share (R28 to R31, R37) -/

/-- A parity error in the record fields a loading request reads: state, reference count, region count, extent,
written map (R37). -/
def ImageRecord.loadReadBad (r : ImageRecord) : Bool :=
  [ImageField.state, .refCount, .regionCount, .extent, .written].any r.bad.contains

/-- A loading request after its step 1: ORDER on a parity error, BUSY while the image is referenced, ORDER in
another state than the one it takes (R28 to R31, R37). -/
def State.loadRequest (s : State) (i : ImageId) (takes : ImageState) (go : State → State × Answer) :
    State × Answer :=
  if (s.image i).loadReadBad then (s.raiseFault .image).refused .order
  else if (s.image i).refCount ≠ 0 then s.refused .busy
  else if (s.image i).state ≠ takes then s.refused .order
  else go s

/-! ## IMAGE BEGIN (R27, R28) -/

/-- The first-fit search: the start of the first gap of at least `count` entries, the first gap starting at `start`
(R27). -/
def firstFit (count start : Nat) : List ExtentEntry → Option Nat
  | [] => if start + count ≤ checkListSize then some start else none
  | e :: rest => if start + count ≤ e.first then some start else firstFit count (e.first + e.count) rest

/-- An extent joins the list at the place that keeps first indexes ascending (R27). -/
def insertExtent (x : ExtentEntry) : List ExtentEntry → List ExtentEntry
  | [] => [x]
  | e :: rest => if x.first < e.first then x :: e :: rest else e :: insertExtent x rest

/-- The record IMAGE BEGIN leaves (R28). -/
def ImageRecord.begun (r : ImageRecord) (tag : Word) (regions first count : Nat) : ImageRecord :=
  { r with
    state := .loading, tag := tag, regionCount := some regions, slots := Vector.replicate 8 Slot.absent,
    extent := some ⟨first, count⟩, written := some (List.replicate count false)
    : ImageRecord }.refreshed [.state, .tag, .regionCount, .extent, .written]

/-- IMAGE BEGIN of an EMPTY image: the extent is allocated, or NO_ROOM (R28). -/
def State.beginImage (i : ImageId) (tag : Word) (regions count : Nat) (s : State) : State × Answer :=
  match firstFit count 0 s.extents with
  | none => s.refused .noRoom
  | some first =>
    let s := { s with extents := insertExtent ⟨i, first, count⟩ s.extents }
    (s.setImage i ((s.image i).begun tag regions first count)).done (be 2 first)

/-- IMAGE BEGIN is judged and carried out (R28). -/
def State.carryImageBegin (p : List Byte) (s : State) : State × Answer :=
  let regions := fieldAt p 5 1
  let count := fieldAt p 6 2
  match below 16 (fieldAt p 0 1) with
  | none => s.refused .badValue
  | some i =>
    if regions = 0 ∨ 8 < regions ∨ count = 0 ∨ checkListSize < count then s.refused .badValue
    else s.loadRequest i .empty (State.beginImage i (BitVec.ofNat 32 (fieldAt p 1 4)) regions count)

/-- IMAGE_BEGIN (R28). -/
def execImageBegin (t : Time) (s : State) : Host.Outcome State Fault Refusal :=
  s.event t fun s => s.takeRequest .imageBegin State.carryImageBegin

/-! ## IMAGE REGION (R29) -/

/-- The region the parameters of IMAGE REGION give, when they are within their values (R29 step 1). -/
def regionOf (p : List Byte) : Option Region :=
  let base := fieldAt p 2 4
  let sizeCode := fieldAt p 6 1
  let length := fieldAt p 7 4
  let blockLength := fieldAt p 11 2
  match boolOfCode (fieldAt p 13 1) with
  | none => none
  | some erase =>
    if sizeCode ≤ 15 && aligned base sizeCode && length != 0 && length ≤ windowSize sizeCode
      && blockLengths.contains blockLength then some ⟨base, sizeCode, length, blockLength, erase⟩
    else none

/-- The other slots of an image's regions (R29 step 5). An absent one overlaps nothing, and whether a slot reads as
loaded stands under its parity (log 23). -/
def ImageRecord.otherSlots (r : ImageRecord) (k : SlotId) : List Slot :=
  (r.usedSlots.zipIdx.filter fun p => p.2 != k.val).map (·.1)

/-- A slot whose region window overlaps a region's window. -/
def Slot.overlaps (x : Slot) (g : Region) : Bool := x.region.any fun q => g.windowsOverlap q

/-- IMAGE REGION of a LOADING image: the slot is written, or OVERLAP. Every other slot is read; a parity error counts
as overlapping (R29; log 21). -/
def State.loadRegion (i : ImageId) (region : Nat) (g : Region) (s : State) : State × Answer :=
  match below 8 region with
  | none => s.refused .badValue
  | some k =>
    if (s.image i).regionCount.getD 0 ≤ region then s.refused .badValue
    else
      let others := (s.image i).otherSlots k
      let bad := others.any (·.parityBad)
      let s := s.raiseIf bad .image
      if bad || others.any (·.overlaps g) then s.refused .overlap
      else
        (s.setImage i { s.image i with slots := (s.image i).slots.set k ⟨some g, false⟩ }).done (be 4 g.checkCount)

/-- IMAGE REGION is judged and carried out (R29). -/
def State.carryImageRegion (p : List Byte) (s : State) : State × Answer :=
  match below 16 (fieldAt p 0 1), regionOf p with
  | some i, some g => s.loadRequest i .loading (State.loadRegion i (fieldAt p 1 1) g)
  | _, _ => s.refused .badValue

/-- IMAGE_REGION (R29). -/
def execImageRegion (t : Time) (s : State) : Host.Outcome State Fault Refusal :=
  s.event t fun s => s.takeRequest .imageRegion State.carryImageRegion

/-! ## IMAGE CHECKS (R30) -/

/-- The most values one IMAGE CHECKS writes (R30). -/
def maxChecks : Nat := 13

/-- The `n` check values from byte 4 of the parameters (R30). -/
def checkValues (p : List Byte) (n : Nat) : List Word :=
  (List.range n).map fun k => BitVec.ofNat 32 (fieldAt p (4 + 4 * k) 4)

/-- Marks `start` to `start + n - 1` set. -/
def markWritten (marks : List Bool) (start n : Nat) : List Bool :=
  marks.zipIdx.map fun p => p.1 || (start ≤ p.2 && p.2 < start + n)

/-- IMAGE CHECKS of a LOADING image: the values are written and their entries marked, or BAD_VALUE past the extent
(R30). -/
def State.loadChecks (i : ImageId) (start : Nat) (values : List Word) (s : State) : State × Answer :=
  let r := s.image i
  let extent := r.extent.getD ⟨0, 0⟩
  if extent.count < start + values.length then s.refused .badValue
  else
    let marks := markWritten (r.written.getD []) start values.length
    let s := { s with checkList := s.checkList.writeAll (extent.first + start) values }
    (s.setImage i { r with written := some marks }).done (be 2 (marks.countP id))

/-- IMAGE CHECKS is judged and carried out (R30). -/
def State.carryImageChecks (p : List Byte) (s : State) : State × Answer :=
  let n := fieldAt p 3 1
  match below 16 (fieldAt p 0 1) with
  | none => s.refused .badValue
  | some i =>
    if n = 0 ∨ maxChecks < n then s.refused .badValue
    else s.loadRequest i .loading (State.loadChecks i (fieldAt p 1 2) (checkValues p n))

/-- IMAGE_CHECKS (R30). -/
def execImageChecks (t : Time) (s : State) : Host.Outcome State Fault Refusal :=
  s.event t fun s => s.takeRequest .imageChecks State.carryImageChecks

/-! ## IMAGE END (R31) -/

/-- The image is complete: its slots loaded, its check counts sum to the extent's count, every entry written (R31
step 4). -/
def ImageRecord.complete (r : ImageRecord) : Bool :=
  r.usedSlots.all (fun x => x.region.isSome && !x.parityBad)
    && (r.usedSlots.map Slot.checkCount).sum == (r.extent.getD ⟨0, 0⟩).count
    && (r.written.getD []).all id

/-- The record IMAGE END leaves (R31). -/
def ImageRecord.ended (r : ImageRecord) (expected : Word) (level : Nat) : ImageRecord :=
  { r with
    state := .checking, expected := some expected, level := some level, progress := some 0, acc := some accPreset
    : ImageRecord }.refreshed [.state, .expected, .level]

/-- IMAGE END of a LOADING image: the self-check starts, or INCOMPLETE (R31). The image becomes a requester of the
check engine (R105, R106). -/
def State.endImage (i : ImageId) (expected : Word) (level : Nat) (s : State) : State × Answer :=
  let r := s.image i
  let s := s.raiseIf (r.usedSlots.any (·.parityBad)) .image
  if r.complete then ((s.setImage i (r.ended expected level)).wakeEngine (.image i)).done []
  else s.refused .incomplete

/-- IMAGE END is judged and carried out (R31). -/
def State.carryImageEnd (p : List Byte) (s : State) : State × Answer :=
  match below 16 (fieldAt p 0 1) with
  | none => s.refused .badValue
  | some i =>
    if 7 < fieldAt p 5 1 then s.refused .badValue
    else s.loadRequest i .loading (State.endImage i (BitVec.ofNat 32 (fieldAt p 1 4)) (fieldAt p 5 1))

/-- IMAGE_END (R31). -/
def execImageEnd (t : Time) (s : State) : Host.Outcome State Fault Refusal :=
  s.event t fun s => s.takeRequest .imageEnd State.carryImageEnd

/-! ## IMAGE DISCARD (R34) -/

/-- The reference count DISCARD judges by: the stored one, or with a parity error the number of flows that name the
image (R37). -/
def State.references (s : State) (i : ImageId) : Nat :=
  if (s.image i).bad.contains .refCount then s.flowsNaming i else (s.image i).refCount

/-- An image returns to EMPTY (R34). -/
def State.discard (s : State) (i : ImageId) : State :=
  let s := s.abandonImageSlice i
  ({ s with extents := s.extents.filter fun e => e.image != i }).setImage i ImageRecord.reset

/-- IMAGE DISCARD is judged and carried out (R34, R37). -/
def State.carryImageDiscard (p : List Byte) (s : State) : State × Answer :=
  match below 16 (fieldAt p 0 1) with
  | none => s.refused .badValue
  | some i =>
    let references := s.references i
    let s := s.raiseIf ((s.image i).bad.contains .refCount) .image
    if references ≠ 0 then s.refused .busy else (s.discard i).done []

/-- IMAGE_DISCARD (R34). -/
def execImageDiscard (t : Time) (s : State) : Host.Outcome State Fault Refusal :=
  s.event t fun s => s.takeRequest .imageDiscard State.carryImageDiscard

/-! ## IMAGE QUERY (R35) -/

/-- The map of loaded slots, bit r for slot r (R35). -/
def ImageRecord.slotMap (r : ImageRecord) : Nat := bits (r.slots.toList.map fun x => x.region.isSome)

/-- Reading the record or a slot for the reply finds a parity error; the map of slots reads all eight (R35; log 23). -/
def ImageRecord.queryBad (r : ImageRecord) : Bool := !r.bad.isEmpty || r.slots.toList.any (·.parityBad)

/-- The result fields of IMAGE QUERY (R35, R163). -/
def ImageRecord.fields (r : ImageRecord) : List Byte :=
  b1 r.state.code ++ be 4 r.tag.toNat ++ b1 (r.regionCount.getD 0) ++ b1 r.slotMap
    ++ be 2 (r.extent.elim 0 Extent.first) ++ be 2 (r.extent.elim 0 Extent.count)
    ++ be 2 (r.written.elim 0 fun m => m.countP id) ++ be 4 (r.expected.elim 0 BitVec.toNat)
    ++ b1 (r.level.getD 0xFF) ++ b1 r.refCount ++ be 2 (r.progress.getD 0xFFFF) ++ bBool r.queryBad

/-- IMAGE QUERY is judged and carried out (R35, R169). -/
def State.carryImageQuery (p : List Byte) (s : State) : State × Answer :=
  match below 16 (fieldAt p 0 1) with
  | none => s.refused .badValue
  | some i => ((s.raiseIf (s.image i).queryBad .image).removeAlert (.image i)).done (s.image i).fields

/-- IMAGE_QUERY (R35). -/
def execImageQuery (t : Time) (s : State) : Host.Outcome State Fault Refusal :=
  s.event t fun s => s.takeRequest .imageQuery State.carryImageQuery

end Sys2Proof.Machine
end

