-- ==== Sys2Proof/Machine/PartRequests.lean ====
section
/-! DEFINITION. The management requests about the part, its ports and its routes: STATUS, FAULTS_CLEAR, PORT_SET,
PORT_RESTART, ROUTE_WRITE, ROUTE_READ, ROUTING_ENABLE (C8, C9). -/

namespace Sys2Proof.Machine

/-! ## STATUS (R164) -/

/-- The countdown in milliseconds, 0 while CLOSED (R115). -/
def State.countdown (s : State) : Nat :=
  match s.window.state, s.window.expiry with
  | .opened, some e => msLeft e s.now
  | _, _ => 0

/-- The number of flows that are not FREE (R164). -/
def State.boundFlows (s : State) : Nat := allFlows.countP fun f => (s.flow f).state != .free

/-- The result fields of STATUS (R164). -/
def State.statusFields (s : State) : List Byte :=
  be 2 0x3620 ++ b1 2 ++ b1 s.mode.code ++ b1 s.defaultAction.code ++ b1 s.window.state.code ++ be 2 s.countdown
    ++ b1 s.supply.state.code ++ be 2 (s.supply.lastSample.getD 0xFFFF) ++ be 2 s.freeCells ++ b1 s.boundFlows
    ++ allPorts.flatMap (fun p => b1 (s.port p).conf.code) ++ b1 s.faults.byte ++ b1 s.strap.toNat
    ++ b1 s.alerts.entries.length

/-- STATUS is carried out (R164). -/
def State.carryStatus (_ : List Byte) (s : State) : State × Answer := s.done s.statusFields

/-- STATUS (R164). -/
def execStatus (t : Time) (s : State) : Host.Outcome State Fault Refusal :=
  s.event t fun s => s.takeRequest .status State.carryStatus

/-! ## FAULTS CLEAR (R172) -/

/-- FAULTS CLEAR is judged and carried out (R172). -/
def State.carryFaultsClear (p : List Byte) (s : State) : State × Answer :=
  let mask := byteAt p 0
  if 32 ≤ mask.toNat then s.refused .badValue
  else
    let flags := s.faults.clearMask mask
    ({ s with faults := flags }).done (b1 flags.byte)

/-- FAULTS_CLEAR (R172). -/
def execFaultsClear (t : Time) (s : State) : Host.Outcome State Fault Refusal :=
  s.event t fun s => s.takeRequest .faultsClear State.carryFaultsClear

/-! ## PORT SET and PORT RESTART (R150, R154) -/

/-- PORT SET is judged and carried out (R150, R154). -/
def State.carryPortSet (p : List Byte) (s : State) : State × Answer :=
  match portOfCode (fieldAt p 0 1), NominalRate.ofCode (fieldAt p 1 1), DataRate.ofCode (fieldAt p 2 1),
    boolOfCode (fieldAt p 3 1) with
  | some port, some nominal, some data, some auto =>
    ((s.setPort port { s.port port with nominal := nominal, dataRate := data, autoRecovery := auto }).restart port).done
      []
  | _, _, _, _ => s.refused .badValue

/-- PORT_SET (R150, R154). -/
def execPortSet (t : Time) (s : State) : Host.Outcome State Fault Refusal :=
  s.event t fun s => s.takeRequest .portSet State.carryPortSet

/-- PORT RESTART is judged and carried out (R154). -/
def State.carryPortRestart (p : List Byte) (s : State) : State × Answer :=
  match portOfCode (fieldAt p 0 1) with
  | none => s.refused .badValue
  | some port => if (s.port port).conf = .off then (s.restart port).done [] else s.refused .order

/-- PORT_RESTART (R154). -/
def execPortRestart (t : Time) (s : State) : Host.Outcome State Fault Refusal :=
  s.event t fun s => s.takeRequest .portRestart State.carryPortRestart

/-! ## ROUTE WRITE and ROUTE READ (R148, R149) -/

/-- The VALID entry the parameters of ROUTE WRITE give, when they are within their values (R148). -/
def routeEntryOf (p : List Byte) : Option RouteEntry :=
  match formatOfCode (fieldAt p 2 1), RouteClass.ofCode (fieldAt p 13 1) with
  | some f, some c =>
    if idInRange f (fieldAt p 3 4) && idInRange f (fieldAt p 7 4) && fieldAt p 11 1 < 32 && fieldAt p 12 1 < 32 then
      some
        { state := .valid, format := f, matchValue := BitVec.ofNat 29 (fieldAt p 3 4),
          matchMask := BitVec.ofNat 29 (fieldAt p 7 4), ingress := BitVec.ofNat 5 (fieldAt p 11 1),
          egress := BitVec.ofNat 5 (fieldAt p 12 1), cls := c, parityBad := false }
    else none
  | _, _ => none

/-- What ROUTE WRITE writes: the reset entry for EMPTY, the entry given for VALID (R148). -/
def routeWritten (p : List Byte) : Option RouteEntry :=
  match fieldAt p 1 1 with
  | 0 => some RouteEntry.reset
  | 1 => routeEntryOf p
  | _ => none

/-- ROUTE WRITE is judged and carried out (R148). -/
def State.carryRouteWrite (p : List Byte) (s : State) : State × Answer :=
  match below 96 (fieldAt p 0 1), routeWritten p with
  | some n, some e => (s.setRoute n e).done []
  | _, _ => s.refused .badValue

/-- ROUTE_WRITE (R148). -/
def execRouteWrite (t : Time) (s : State) : Host.Outcome State Fault Refusal :=
  s.event t fun s => s.takeRequest .routeWrite State.carryRouteWrite

/-- The result fields of ROUTE READ (R149, R163). -/
def RouteEntry.fields (e : RouteEntry) : List Byte :=
  b1 e.state.code ++ b1 (formatCode e.format) ++ be 4 e.matchValue.toNat ++ be 4 e.matchMask.toNat
    ++ b1 e.ingress.toNat ++ b1 e.egress.toNat ++ b1 e.cls.code ++ bBool (e.state == .damaged)

/-- ROUTE READ is judged and carried out: a VALID entry read with a parity error becomes DAMAGED (R149). The read of an
entry that is DAMAGED already sets no flag (log 29). -/
def State.carryRouteRead (p : List Byte) (s : State) : State × Answer :=
  match below 96 (fieldAt p 0 1) with
  | none => s.refused .badValue
  | some n =>
    let e := s.route n
    if e.state = .valid ∧ e.parityBad then
      let damaged := { e with state := .damaged }
      ((s.setRoute n damaged).raiseFault .route).done damaged.fields
    else s.done e.fields

/-- ROUTE_READ (R149). -/
def execRouteRead (t : Time) (s : State) : Host.Outcome State Fault Refusal :=
  s.event t fun s => s.takeRequest .routeRead State.carryRouteRead

/-! ## ROUTING ENABLE (R141) -/

/-- ROUTING ENABLE is judged and carried out (R141). -/
def State.carryRoutingEnable (p : List Byte) (s : State) : State × Answer :=
  match DefaultAction.ofCode (fieldAt p 0 1) with
  | none => s.refused .badValue
  | some d => ({ s with mode := .routing, defaultAction := d }).done (b1 s.mode.code)

/-- ROUTING_ENABLE (R141). -/
def execRoutingEnable (t : Time) (s : State) : Host.Outcome State Fault Refusal :=
  s.event t fun s => s.takeRequest .routingEnable State.carryRoutingEnable

end Sys2Proof.Machine
end

