-- ==== Sys2Proof/Machine/Supply.lean ====
section
/-! DEFINITION. The supply monitor (C7): conversions, the filter, the supply hold and the gate answers (R94, R95),
for SAMPLE_TIME and CONVERSION_COMPLETE. -/

namespace Sys2Proof.Machine

/-! ## Sample times (R128) -/

/-- The time has reached the next sample time (R128). -/
def State.sampleDue (s : State) : Bool := s.supply.nextSample ≤ s.now

/-- The sample time is reached: a conversion starts or periodic due is set, and the next sample time is the old one
plus the sample period (R128). -/
def State.sampleTime (s : State) : State :=
  if s.sampleDue then
    let s := match s.supply.converter with
      | .idle => s.startConversion
      | .converting _ _ => s.mapSupply fun m => { m with periodicDue := true }
    s.mapSupply fun m => { m with nextSample := m.nextSample + ms m.settings.period }
  else s

/-! ## Value, limits, candidate, filter (R129 to R132) -/

/-- The value of a conversion: the raw reading minus the offset, kept within 0 to 32767 (R129). -/
def conversionValue (raw : Nat) (offset : Int) : Nat := min 32767 (Int.toNat (raw - offset))

/-- The effective restore level (R130). -/
def SupplySettings.restoreLevel (g : SupplySettings) : Nat :=
  if g.restoreLimit ≠ 0 then g.restoreLimit else if g.lowLimit ≠ 0 then g.lowLimit else g.criticalLimit

/-- A value is below an enabled limit (R130). -/
def belowLimit (limit v : Nat) : Bool := limit != 0 && v < limit

/-- The candidate state of a value (R131). -/
def SupplySettings.candidate (g : SupplySettings) (current : SupplyState) (v : Nat) : SupplyState :=
  if belowLimit g.criticalLimit v then .critical
  else if belowLimit g.lowLimit v then .low
  else if g.restoreLevel ≤ v then .normal
  else if current = .critical then .low
  else current

/-- The run after a candidate that differs from the current state (R132). -/
def nextRun (run : Option CandidateRun) (k : SupplyState) : CandidateRun :=
  match run with
  | some r => if r.candidate = k then ⟨k, r.count + 1⟩ else ⟨k, 1⟩
  | none => ⟨k, 1⟩

/-! ## Changes of the supply state (R133 to R135) -/

/-- The supply hold at one flow (R134). -/
def State.supplyHold (s : State) (f : FlowId) : State :=
  if (s.flow f).state.atWork then
    let s := s.mapFlow f fun c => { c with holds := { c.holds with supply := true } }
    match (s.flow f).target, (s.flow f).record with
    | some n, some (.inspected _) =>
      let final := (s.flow f).finalTaken
      (((s.dropParcelWork f).refuse n UpdateCode.block.code .supply 0x00).setVerdict f .broken).setRecord f
        (recordAfterEnd final)
    | some n, some (.gated g) => (s.dropGated f).refuse n g.code .supply 0x00
    | _, _ => s
  else s

/-- SUPPLY is removed from a flow's hold causes (R135). -/
def State.supplyRelease (s : State) (f : FlowId) : State :=
  s.mapFlow f fun c => { c with holds := { c.holds with supply := false } }

/-- The flows at a change of supply state: the hold on entering CRITICAL, its end on leaving (R134, R135). -/
def State.flowsAtSupplyChange (s : State) (old new : SupplyState) : State :=
  if new = .critical then allFlows.foldl State.supplyHold s
  else if old = .critical then allFlows.foldl State.supplyRelease s
  else s

/-- The supply state changes: the run is absent, the flows are dealt with, their refusals before the SUPPLY alert that is
queued then (R132 to R135). -/
def State.changeSupply (s : State) (new : SupplyState) (v : Nat) : State :=
  let old := s.supply.state
  let s := s.mapSupply fun m => { m with state := new, run := none }
  ((s.flowsAtSupplyChange old new).offersComeFirst).queueAlert (.supply new old v)

/-- The filter takes the value of a conversion (R131, R132). -/
def State.filter (s : State) (v : Nat) : State :=
  let k := s.supply.settings.candidate s.supply.state v
  if k = s.supply.state then s.mapSupply fun m => { m with run := none }
  else if s.supply.settings.depth ≤ (nextRun s.supply.run k).count then s.changeSupply k v
  else s.mapSupply fun m => { m with run := some (nextRun m.run k) }

/-! ## Gate answers (R94, R95, R137) -/

/-- A conversion passes the gate (R137). -/
def Supply.passes (m : Supply) (v : Nat) : Bool :=
  m.state == .normal && (m.settings.lowLimit == 0 || m.settings.lowLimit ≤ v)

/-- A gated request is not forwarded: the cell goes back, the record is absent and one refusal is sent (R94, R95). -/
def State.refuseGated (s : State) (f : FlowId) (n : TargetId) (g : Gated) (reason : Reason) (detail : Byte) : State :=
  (s.dropGated f).refuse n g.code reason detail

/-- The request a gated record stands for, once it is forwarded (R47). -/
def Gated.pendingKind : Gated → PendingKind
  | .erase r => .erase r
  | .activate => .activate

/-- The update request a gated record stands for. -/
def Gated.update : Gated → UpdateCode
  | .erase _ => .erase
  | .activate => .activate

/-- The held frame of a gated request, as its cell holds it. -/
def State.heldCell (s : State) (f : FlowId) : Cell :=
  match (s.flow f).held with
  | some c => s.cell c
  | none => Cell.reset

/-- A passing answer places the held frame in the segment queue and the pending request begins (R94, R95). The reads
of the target entry and of the cell come before the room is judged (R81, R102; log 15). -/
def State.forwardGated (s : State) (f : FlowId) (n : TargetId) (g : Gated) : State :=
  if (s.target n).parityBad then s.tableFault f n .target g.update
  else if (s.heldCell f).parityBad then (s.raiseFault .cell).refuseGated f n g .broken 0x05
  else if s.segRoom n then
    ((s.toSegment n (s.heldFrame n (s.heldCell f).content)).beginPending f g.pendingKind).dropGated f
  else s.refuseGated f n g .broken 0x05

/-- A hold cause stops a passing ACTIVATE and no ERASE (R94, R95). -/
def Gated.stoppedBy : Gated → HoldCauses → Bool
  | .erase _, _ => false
  | .activate, h => h.any

/-- A gate answer at its flow; without a GATED record it has no effect (R93 to R95). -/
def State.gateAnswer (v : Nat) (s : State) (f : FlowId) : State :=
  match (s.flow f).target, (s.flow f).record with
  | some n, some (.gated g) =>
    if !s.supply.passes v then s.refuseGated f n g .supply 0x00
    else if g.stoppedBy (s.flow f).holds then s.refuseGated f n g .held 0x00
    else s.forwardGated f n g
  | _, _ => s

/-- The served gate requests of the conversion in progress. -/
def Converter.served : Converter → List FlowId
  | .idle => []
  | .converting _ served => served

/-- The gate requests of the conversion are answered in ascending order (R137). -/
def State.answerGates (s : State) (v : Nat) : State := s.supply.converter.served.foldl (State.gateAnswer v) s

/-- After the completion's own effects the next conversion starts, or the converter becomes IDLE (R128). -/
def State.nextConversion (s : State) : State :=
  if s.supply.periodicDue || !s.supply.waiting.isEmpty then
    (s.mapSupply fun m => { m with periodicDue := false }).startConversion
  else s.mapSupply fun m => { m with converter := .idle }

/-- A conversion is in progress and the time has reached its completion (R128). -/
def State.conversionDue (s : State) : Bool :=
  match s.supply.converter with
  | .idle => false
  | .converting c _ => c ≤ s.now

/-- A conversion completes: value, last sample, filter, gate answers, next conversion (R128 to R137). -/
def State.conversionComplete (s : State) (raw : Nat) : State :=
  if s.conversionDue then
    let v := conversionValue raw s.supply.settings.offset
    let s := s.mapSupply fun m => { m with lastSample := some v }
    ((s.filter v).answerGates v).nextConversion
  else s

end Sys2Proof.Machine
end

