-- ==== Sys2Proof/Machine/SupplyRequests.lean ====
section
/-! DEFINITION. The management requests of the supply monitor: SUPPLY_SET, SUPPLY_QUERY (C7 section 7.7). -/

namespace Sys2Proof.Machine

/-- Two limits that, when both are enabled, must hold the given order (R139). -/
def limitsOrdered (ordered : Nat → Nat → Bool) (a b : Nat) : Bool := a == 0 || b == 0 || ordered a b

/-- The settings are within their values and the enabled limits are in order (R139). -/
def SupplySettings.legal (g : SupplySettings) : Bool :=
  1 ≤ g.period && g.period ≤ 50 && -2048 ≤ g.offset && g.offset ≤ 2047 && g.lowLimit ≤ 32767
    && g.criticalLimit ≤ 32767 && g.restoreLimit ≤ 32767 && 1 ≤ g.depth && g.depth ≤ 8
    && limitsOrdered (· < ·) g.criticalLimit g.lowLimit && limitsOrdered (· ≤ ·) g.lowLimit g.restoreLimit
    && limitsOrdered (· < ·) g.criticalLimit g.restoreLimit

/-- The settings the parameters of SUPPLY SET give (R139). -/
def settingsOf (p : List Byte) : SupplySettings :=
  { period := fieldAt p 0 1, offset := int16 (fieldAt p 1 2), lowLimit := fieldAt p 3 2,
    criticalLimit := fieldAt p 5 2, restoreLimit := fieldAt p 7 2, depth := fieldAt p 9 1 }

/-- The settings take the values given, the run becomes absent and the next sample time is now plus the period
(R139). -/
def State.setSupply (s : State) (g : SupplySettings) : State :=
  s.mapSupply fun m => { m with settings := g, run := none, nextSample := s.now + ms g.period }

/-- SUPPLY SET is judged and carried out (R139). -/
def State.carrySupplySet (p : List Byte) (s : State) : State × Answer :=
  if (settingsOf p).legal then (s.setSupply (settingsOf p)).done (b1 s.supply.state.code) else s.refused .badValue

/-- SUPPLY_SET (R139). -/
def execSupplySet (t : Time) (s : State) : Host.Outcome State Fault Refusal :=
  s.event t fun s => s.takeRequest .supplySet State.carrySupplySet

/-- The gate requests outstanding (R140). -/
def Supply.outstanding (m : Supply) : Nat := m.waiting.length + m.converter.served.length

/-- The result fields of SUPPLY QUERY (R140). -/
def Supply.fields (m : Supply) : List Byte :=
  b1 m.state.code ++ be 2 (m.lastSample.getD 0xFFFF) ++ b1 m.settings.period ++ be16Int m.settings.offset
    ++ be 2 m.settings.lowLimit ++ be 2 m.settings.criticalLimit ++ be 2 m.settings.restoreLimit
    ++ b1 m.settings.depth ++ b1 (m.run.elim 0xFF fun r => r.candidate.code) ++ b1 (m.run.elim 0 CandidateRun.count)
    ++ b1 m.converter.code ++ b1 m.outstanding

/-- SUPPLY QUERY is carried out (R140). -/
def State.carrySupplyQuery (_ : List Byte) (s : State) : State × Answer := s.done s.supply.fields

/-- SUPPLY_QUERY (R140). -/
def execSupplyQuery (t : Time) (s : State) : Host.Outcome State Fault Refusal :=
  s.event t fun s => s.takeRequest .supplyQuery State.carrySupplyQuery

end Sys2Proof.Machine
end

