-- ==== Sys2Proof/Machine/TargetRequests.lean ====
section
/-! DEFINITION. The management requests of the target table: TARGET_WRITE, TARGET_READ (C2 section 2.1). -/

namespace Sys2Proof.Machine

/-! ## TARGET WRITE (R22) -/

/-- An identifier parameter: format at byte `k`, value in the four bytes after it (R22). -/
def idParam (p : List Byte) (k : Nat) : Option CanId :=
  match formatOfCode (fieldAt p k 1) with
  | some f => if idInRange f (fieldAt p (k + 1) 4) then some ⟨f, BitVec.ofNat 29 (fieldAt p (k + 1) 4)⟩ else none
  | none => none

/-- A guard window parameter: present flag at byte `k`, base, size code; the base and the size code of an absent one
are not checked (R22). The outer `none` is out of range. -/
def guardParam (p : List Byte) (k : Nat) : Option (Option AddrWindow) :=
  match boolOfCode (fieldAt p k 1) with
  | none => none
  | some false => some none
  | some true =>
    if fieldAt p (k + 5) 1 ≤ 15 && aligned (fieldAt p (k + 1) 4) (fieldAt p (k + 5) 1) then
      some (some ⟨fieldAt p (k + 1) 4, fieldAt p (k + 5) 1⟩)
    else none

/-- The VALID entry the parameters of TARGET WRITE give, when they are within their values (R22 step 1). -/
def targetEntryOf (p : List Byte) : Option TargetEntry :=
  match Segment.ofCode (fieldAt p 2 1), idParam p 3, idParam p 8, guardParam p 13, guardParam p 19 with
  | some g, some request, some response, some guard0, some guard1 =>
    some
      { state := .valid, segment := g, request := request, response := response, guard0 := guard0, guard1 := guard1,
        parityBad := false, tracker := .none }
  | _, _, _, _, _ => none

/-- What TARGET WRITE writes: the reset entry for EMPTY, the entry given for VALID (R22). -/
def targetWritten (p : List Byte) : Option TargetEntry :=
  match fieldAt p 1 1 with
  | 0 => some TargetEntry.reset
  | 1 => targetEntryOf p
  | _ => none

/-- The other VALID entries of the table (R22 step 3). -/
def State.otherTargets (s : State) (n : TargetId) : List TargetEntry :=
  (allTargets.filter fun k => k != n && (s.target k).state == .valid).map s.target

/-- An identifier that a written one may not equal: a management identifier or one of another VALID entry (R20,
R22). -/
def State.takenIds (s : State) (n : TargetId) : List CanId :=
  managementIds s.strap ++ (s.otherTargets n).flatMap fun e => [e.request, e.response]

/-- The written identifiers are duplicates (R22 step 3). -/
def State.duplicate (s : State) (n : TargetId) (e : TargetEntry) : Bool :=
  e.request == e.response || (s.takenIds n).contains e.request || (s.takenIds n).contains e.response

/-- TARGET WRITE of an entry within its values: BUSY, DUPLICATE, or the write (R22). Every other VALID entry is read
when the state written is VALID; a parity error counts as a duplicate (R24; log 21). -/
def State.writeTarget (s : State) (n : TargetId) (e : TargetEntry) : State × Answer :=
  if (s.boundFlow n).isSome then s.refused .busy
  else if e.state = .valid then
    let bad := (s.otherTargets n).any (·.parityBad)
    let s := s.raiseIf bad .target
    if bad || s.duplicate n e then s.refused .duplicate else (s.setTarget n e).done []
  else (s.setTarget n e).done []

/-- TARGET WRITE is judged and carried out (R22). -/
def State.carryTargetWrite (p : List Byte) (s : State) : State × Answer :=
  match below 32 (fieldAt p 0 1), targetWritten p with
  | some n, some e => s.writeTarget n e
  | _, _ => s.refused .badValue

/-- TARGET_WRITE (R22). -/
def execTargetWrite (t : Time) (s : State) : Host.Outcome State Fault Refusal :=
  s.event t fun s => s.takeRequest .targetWrite State.carryTargetWrite

/-! ## TARGET READ (R23) -/

/-- An identifier with its format (R23). -/
def idFields (i : CanId) : List Byte := b1 (formatCode i.format) ++ be 4 i.value.toNat

/-- A guard window with its present flag. The base and size code of an absent one have no value in the manual: they
are free (log 10). -/
def guardFields (seed : Nat) : Option AddrWindow → List Byte
  | some w => b1 1 ++ be 4 w.base ++ b1 w.sizeCode
  | none => b1 0 ++ (List.range 5).map fun k => Config.freeByte (seed + k)

/-- The stored fields of an entry as TARGET READ reports them (R23, R163). -/
def TargetEntry.fields (e : TargetEntry) (seed : Nat) : List Byte :=
  b1 e.state.code ++ b1 e.segment.code ++ idFields e.request ++ idFields e.response ++ guardFields seed e.guard0
    ++ guardFields (seed + 5) e.guard1

/-- The read of a VALID entry finds a parity error (R24). -/
def TargetEntry.readBad (e : TargetEntry) : Bool := e.state == .valid && e.parityBad

/-- TARGET READ is judged and carried out (R23). -/
def State.carryTargetRead (p : List Byte) (s : State) : State × Answer :=
  match below 32 (fieldAt p 0 1) with
  | none => s.refused .badValue
  | some n =>
    let e := s.target n
    let fields := e.fields s.freeCount ++ b1 ((s.boundFlow n).elim 0xFF Fin.val) ++ b1 e.tracker.code ++ bBool e.readBad
    (({ s with freeCount := s.freeCount + 10 }).raiseIf e.readBad .target).done fields

/-- TARGET_READ (R23). -/
def execTargetRead (t : Time) (s : State) : Host.Outcome State Fault Refusal :=
  s.event t fun s => s.takeRequest .targetRead State.carryTargetRead

end Sys2Proof.Machine
end

