-- ==== Sys2Proof/Machine/Window.lean ====
section
/-! DEFINITION. The update window's closure and expiry (C6), for WINDOW_EXPIRY. -/

namespace Sys2Proof.Machine

/-- The condition a closure gives the flows it fails (R120). -/
def ClosureCause.condition : ClosureCause → Condition
  | .lapsed => .windowLapsed
  | .closed => .windowClosed

/-- The number of flows at work (R124). -/
def State.flowsAtWork (s : State) : Nat := allFlows.countP fun f => (s.flow f).state.atWork

/-- The tracker of a flow's target becomes NONE when the flow is not FREE (R69). -/
def State.clearTrackerOf (s : State) (f : FlowId) : State :=
  if (s.flow f).state = .free then s
  else
    match (s.flow f).target with
    | some n => s.setTracker n .none
    | none => s

/-- At each change of the window state the tracker of every target that has a bound flow becomes NONE (R69). -/
def State.clearTrackers (s : State) : State := allFlows.foldl State.clearTrackerOf s

/-- At a closure the parcel record of a DONE or FAILED flow becomes absent (R69). -/
def State.clearRecordOf (s : State) (f : FlowId) : State :=
  if (s.flow f).state = .done ∨ (s.flow f).state = .failed then s.setRecord f none else s

/-- The window closes: the flows at work fail, records and trackers are cleared, the window record is closed, and the
WINDOW alert follows the FLOW alerts (R120 to R124). -/
def State.closeWindow (s : State) (cause : ClosureCause) : State :=
  let number := s.flowsAtWork
  let s := allFlows.foldl (fun s f => s.failFlow f cause.condition) s
  let s := (allFlows.foldl State.clearRecordOf s).clearTrackers
  ({ s with window := Window.reset }).queueAlert (.window cause number)

/-- The window is OPEN and the time has reached its expiry time (R118). -/
def State.windowDue (s : State) : Bool := s.window.state == .opened && s.window.expiry.any (· ≤ s.now)

/-- The countdown expires (R118). -/
def State.windowExpiry (s : State) : State := if s.windowDue then s.closeWindow .lapsed else s

end Sys2Proof.Machine
end

