-- ==== Sys2Proof/Machine/WindowRequests.lean ====
section
/-! DEFINITION. The management requests of the update window: WINDOW_OPEN, WINDOW_RENEW, WINDOW_CLOSE (C6). -/

namespace Sys2Proof.Machine

/-- The window opens for a period in milliseconds (R116). -/
def State.openWindow (s : State) (period : Nat) : State :=
  ({ s with
    window :=
      { state := .opened, period := some period, expiry := some (s.now + ms period), renewal := .none } }).clearTrackers

/-- WINDOW OPEN is judged and carried out; the period counts 100 ms each (R116). -/
def State.carryWindowOpen (p : List Byte) (s : State) : State × Answer :=
  let period := fieldAt p 0 2
  if period = 0 ∨ 600 < period then s.refused .badValue
  else if s.mode = .passthrough then s.refused .order
  else if s.window.state = .opened then s.refused .order
  else (s.openWindow (100 * period)).done []

/-- WINDOW_OPEN (R116). -/
def execWindowOpen (t : Time) (s : State) : Host.Outcome State Fault Refusal :=
  s.event t fun s => s.takeRequest .windowOpen State.carryWindowOpen

/-- The renewal step as it is set (R117). -/
def State.setRenewal (s : State) (k : RenewalStep) : State := { s with window := { s.window with renewal := k } }

/-- Step 2 of a renewal: the expiry time is now plus the period, and the step becomes NONE (R117). -/
def State.renew (s : State) : State :=
  { s with
    window := { s.window with expiry := some (s.now + ms (s.window.period.getD 0)), renewal := .none } }

/-- WINDOW RENEW is judged and carried out (R117). -/
def State.carryWindowRenew (p : List Byte) (s : State) : State × Answer :=
  let step := fieldAt p 0 1
  if step ≠ 1 ∧ step ≠ 2 then s.refused .badValue
  else if s.window.state = .closed then s.refused .order
  else if step = 1 then (s.setRenewal .armed).done (b1 RenewalStep.armed.code)
  else if s.window.renewal = .none then s.refused .order
  else s.renew.done (b1 RenewalStep.none.code)

/-- WINDOW_RENEW (R117). -/
def execWindowRenew (t : Time) (s : State) : Host.Outcome State Fault Refusal :=
  s.event t fun s => s.takeRequest .windowRenew State.carryWindowRenew

/-- WINDOW CLOSE is judged and carried out (R119, R120). -/
def State.carryWindowClose (_ : List Byte) (s : State) : State × Answer :=
  if s.window.state = .closed then s.refused .order
  else (s.closeWindow .closed).done (b1 s.flowsAtWork)

/-- WINDOW_CLOSE (R119). -/
def execWindowClose (t : Time) (s : State) : Host.Outcome State Fault Refusal :=
  s.event t fun s => s.takeRequest .windowClose State.carryWindowClose

end Sys2Proof.Machine
end

