-- ==== Sys2Proof/Machine/AtOnce.lean ====
section
/-! DEFINITION. What the part does at once (R160, R161, R168): a READY responder takes the head of the request queue, a
waiting reply and the head alert move to TRUNK. The rows of the table take these actions one by one; what no row has
taken is taken before the next event from outside (log 1). -/

namespace Sys2Proof.Machine

/-- The rule that judges a request and carries it out (R163). -/
def State.carry : Request → List Byte → State → State × Answer
  | .status => State.carryStatus
  | .faultsClear => State.carryFaultsClear
  | .portSet => State.carryPortSet
  | .portRestart => State.carryPortRestart
  | .routeWrite => State.carryRouteWrite
  | .routeRead => State.carryRouteRead
  | .routingEnable => State.carryRoutingEnable
  | .targetWrite => State.carryTargetWrite
  | .targetRead => State.carryTargetRead
  | .imageBegin => State.carryImageBegin
  | .imageRegion => State.carryImageRegion
  | .imageChecks => State.carryImageChecks
  | .imageEnd => State.carryImageEnd
  | .imageDiscard => State.carryImageDiscard
  | .imageQuery => State.carryImageQuery
  | .windowOpen => State.carryWindowOpen
  | .windowRenew => State.carryWindowRenew
  | .windowClose => State.carryWindowClose
  | .flowBind => State.carryFlowBind
  | .flowRelease => State.carryFlowRelease
  | .flowHold => State.carryFlowHold
  | .flowResume => State.carryFlowResume
  | .flowQuery => State.carryFlowQuery
  | .supplySet => State.carrySupplySet
  | .supplyQuery => State.carrySupplyQuery

/-- A READY responder takes the head frame (R14, R160). -/
def State.takeHead (s : State) : State :=
  match s.nextFrame with
  | none => s
  | some frame =>
    if tagged frame then
      match requestNamed frame with
      | some r => s.takeRequest r (State.carry r)
      | none => s.unknownRequest
    else s.requestWithoutTag

/-- The actions the part takes at once. -/
inductive AtOnce where
  | take
  | reply
  | alert
  deriving DecidableEq, Repr

/-- The actions that are due at once (R160, R161, R168). -/
def State.atOnce (s : State) : List AtOnce :=
  (if s.nextFrame.isSome then [.take] else []) ++ (if s.replyReady then [.reply] else [])
    ++ (if s.alertReady then [.alert] else [])

/-- One of these actions is taken. -/
def State.doAtOnce (s : State) : AtOnce → State
  | .take => s.takeHead
  | .reply => s.replyEnqueue
  | .alert => s.alertMove

/-- The one action that is due is taken, or one of several, chosen freely (R162, log 2). -/
def State.settleOnce (s : State) : State :=
  match s.atOnce with
  | [] => s
  | [a] => s.doAtOnce a
  | l =>
    match l[Config.firstTaken s.freeCount % l.length]? with
    | some a => ({ s with freeCount := s.freeCount + 1 }).doAtOnce a
    | none => s

/-- Up to `n` of these actions are taken. -/
def State.settleFor : Nat → State → State
  | 0, s => s
  | n + 1, s => State.settleFor n s.settleOnce

/-- The actions that can come: each frame of the queue is taken once, and each taking, and the state as it stands, can
bring one reply and one alert. -/
def State.atOnceBound (s : State) : Nat := 3 * s.mgmt.queue.length + 2

/-- Every action that is due at once is taken, at the time of the event that made it due (R160, R161, R168; log 1). -/
def State.settle (s : State) : State := State.settleFor s.atOnceBound s

/-- An event from outside, or an expiry or a completion, taken at time `t`: what was due at once comes before it. While
RESET is held low nothing but the time changes (log 1, log 5). -/
def State.settledEvent (s : State) (t : Time) (f : State → State) : Host.Outcome State Fault Refusal :=
  if s.resetHeld then .next (s.advance t) else .next (f (s.settle.advance t))

end Sys2Proof.Machine
end

