-- ==== Sys2Proof/Machine/Events.lean ====
section
/-! DEFINITION. The events that come to the part from its ports, its deadlines, its check engine and its converter. Each
is taken after what was due at once before it (R160, log 1), and the frames it offered to TRUNK join at its end
(R162). FRAME_ARRIVAL, RECEPTION_ERROR, TRANSMISSION_ATTEMPT_START,
TRANSMISSION_SUCCESS, ARBITRATION_LOST, TRANSMISSION_ERROR, RECOVERY_COMPLETE, PENDING_DEADLINE_EXPIRY,
GAP_DEADLINE_EXPIRY, WINDOW_EXPIRY, FLOW_SLICE_COMPLETE, IMAGE_SLICE_COMPLETE, SAMPLE_TIME, CONVERSION_COMPLETE. -/

namespace Sys2Proof.Machine

/-! ## Frames and ports (C8) -/

/-- FRAME_ARRIVAL (R142 to R145, R151). -/
def execFrameArrival (t : Time) (port : Port) (frame : CanFrame) (s : State) : Host.Outcome State Fault Refusal :=
  s.settledEvent t fun s => (s.arrival port frame).trunkTakes

/-- RECEPTION_ERROR (R151). -/
def execReceptionError (t : Time) (p : Port) (s : State) : Host.Outcome State Fault Refusal :=
  s.settledEvent t fun s => s.receptionError p

/-- TRANSMISSION_ATTEMPT_START (R151). An attempt in progress goes on, and an empty queue starts none (log 4). -/
def execTransmissionAttemptStart (t : Time) (p : Port) (s : State) : Host.Outcome State Fault Refusal :=
  s.settledEvent t fun s => s.attemptStart p

/-- TRANSMISSION_SUCCESS (R151). -/
def execTransmissionSuccess (t : Time) (p : Port) (s : State) : Host.Outcome State Fault Refusal :=
  s.settledEvent t fun s => s.transmissionSuccess p

/-- ARBITRATION_LOST: the frame stays in the queue and the counts do not change (R151). -/
def execArbitrationLost (t : Time) (p : Port) (s : State) : Host.Outcome State Fault Refusal :=
  s.settledEvent t fun s => s.setPort p { s.port p with queue := unmark (s.port p).queue }

/-- TRANSMISSION_ERROR (R151 to R154). -/
def execTransmissionError (t : Time) (p : Port) (s : State) : Host.Outcome State Fault Refusal :=
  s.settledEvent t fun s => (s.transmissionError p).trunkTakes

/-- RECOVERY_COMPLETE (R154). A recovery whose runs have not been observed does not complete (log 4). -/
def execRecoveryComplete (t : Time) (p : Port) (s : State) : Host.Outcome State Fault Refusal :=
  s.settledEvent t fun s => s.recoveryComplete p

/-! ## Expiries (C3, C4, C6) -/

/-- PENDING_DEADLINE_EXPIRY (R50). A deadline that does not stand or is not reached does not expire (log 4). -/
def execPendingDeadlineExpiry (t : Time) (f : FlowId) (s : State) : Host.Outcome State Fault Refusal :=
  s.settledEvent t fun s => s.pendingExpiry f

/-- GAP_DEADLINE_EXPIRY (R88). A deadline that does not stand or is not reached does not expire (log 4). -/
def execGapDeadlineExpiry (t : Time) (f : FlowId) (s : State) : Host.Outcome State Fault Refusal :=
  s.settledEvent t fun s => (s.gapExpiry f).trunkTakes

/-- WINDOW_EXPIRY (R118, R120). An expiry time that does not stand or is not reached does not expire (log 4). -/
def execWindowExpiry (t : Time) (s : State) : Host.Outcome State Fault Refusal :=
  s.settledEvent t fun s => s.windowExpiry

/-! ## Completions (C5, C7) -/

/-- FLOW_SLICE_COMPLETE (R108). Without a flow slice in the engine nothing completes (log 4). -/
def execFlowSliceComplete (t : Time) (s : State) : Host.Outcome State Fault Refusal :=
  s.settledEvent t fun s => s.flowSliceComplete.trunkTakes

/-- IMAGE_SLICE_COMPLETE (R112). Without an image slice in the engine nothing completes (log 4). -/
def execImageSliceComplete (t : Time) (s : State) : Host.Outcome State Fault Refusal :=
  s.settledEvent t fun s => s.imageSliceComplete

/-- SAMPLE_TIME (R128). A sample time that is not reached starts nothing (log 4). -/
def execSampleTime (t : Time) (s : State) : Host.Outcome State Fault Refusal :=
  s.settledEvent t fun s => s.sampleTime

/-- CONVERSION_COMPLETE (R129 to R137). Without a conversion that has run its 0.2 ms nothing completes (log 4). -/
def execConversionComplete (t : Time) (raw : Nat) (s : State) : Host.Outcome State Fault Refusal :=
  s.settledEvent t fun s => (s.conversionComplete raw).trunkTakes

end Sys2Proof.Machine
end

