-- ==== Sys2Proof/Machine/Reset.lean ====
section
/-! DEFINITION. Device reset and its release. DEVICE_RESET, RESET_RELEASE. -/

namespace Sys2Proof.Machine

/-- DEVICE_RESET: every piece of state takes its reset value (00_scope.md section 6, "Resets"). The model's own
queues, its time and its free-value counter go on (log 5). -/
def execDeviceReset (t : Time) (s : State) : Host.Outcome State Fault Refusal :=
  .next { State.reset with
    pending := s.pending, outside := s.outside, now := (s.advance t).now, freeCount := s.freeCount }

/-- The release of reset: the straps are sampled (R158) and the next sample time is now (R127). -/
def State.release (s : State) (straps : BitVec 3) : State :=
  ({ s with resetHeld := false, strap := straps }).mapSupply fun m => { m with nextSample := s.now }

/-- RESET_RELEASE. When RESET is not held there is nothing to release, and a change of strap level has no effect
(R158; log 4). -/
def execResetRelease (t : Time) (straps : BitVec 3) (s : State) : Host.Outcome State Fault Refusal :=
  if s.resetHeld then .next ((s.advance t).release straps) else .next (s.advance t)

end Sys2Proof.Machine
end

