-- ==== Sys2Proof/Machine/Dispatch.lean ====
section
/-! DEFINITION. One arm per command: the direct call of its meaning. -/

namespace Sys2Proof.Machine

def exec (i : Instr) (s : State) : Host.Outcome State Fault Refusal :=
  match i with
  | .deviceReset t => Sys2Proof.Machine.execDeviceReset t s
  | .resetRelease t straps => Sys2Proof.Machine.execResetRelease t straps s
  | .frameArrival t port frame => Sys2Proof.Machine.execFrameArrival t port frame s
  | .receptionError t port => Sys2Proof.Machine.execReceptionError t port s
  | .transmissionAttemptStart t port => Sys2Proof.Machine.execTransmissionAttemptStart t port s
  | .transmissionSuccess t port => Sys2Proof.Machine.execTransmissionSuccess t port s
  | .arbitrationLost t port => Sys2Proof.Machine.execArbitrationLost t port s
  | .transmissionError t port => Sys2Proof.Machine.execTransmissionError t port s
  | .recoveryComplete t port => Sys2Proof.Machine.execRecoveryComplete t port s
  | .replyEnqueue t => Sys2Proof.Machine.execReplyEnqueue t s
  | .alertMove t => Sys2Proof.Machine.execAlertMove t s
  | .requestWithoutTag t => Sys2Proof.Machine.execRequestWithoutTag t s
  | .unknown t => Sys2Proof.Machine.execUnknown t s
  | .status t => Sys2Proof.Machine.execStatus t s
  | .faultsClear t => Sys2Proof.Machine.execFaultsClear t s
  | .portSet t => Sys2Proof.Machine.execPortSet t s
  | .portRestart t => Sys2Proof.Machine.execPortRestart t s
  | .routeWrite t => Sys2Proof.Machine.execRouteWrite t s
  | .routeRead t => Sys2Proof.Machine.execRouteRead t s
  | .routingEnable t => Sys2Proof.Machine.execRoutingEnable t s
  | .targetWrite t => Sys2Proof.Machine.execTargetWrite t s
  | .targetRead t => Sys2Proof.Machine.execTargetRead t s
  | .imageBegin t => Sys2Proof.Machine.execImageBegin t s
  | .imageRegion t => Sys2Proof.Machine.execImageRegion t s
  | .imageChecks t => Sys2Proof.Machine.execImageChecks t s
  | .imageEnd t => Sys2Proof.Machine.execImageEnd t s
  | .imageDiscard t => Sys2Proof.Machine.execImageDiscard t s
  | .imageQuery t => Sys2Proof.Machine.execImageQuery t s
  | .windowOpen t => Sys2Proof.Machine.execWindowOpen t s
  | .windowRenew t => Sys2Proof.Machine.execWindowRenew t s
  | .windowClose t => Sys2Proof.Machine.execWindowClose t s
  | .flowBind t => Sys2Proof.Machine.execFlowBind t s
  | .flowRelease t => Sys2Proof.Machine.execFlowRelease t s
  | .flowHold t => Sys2Proof.Machine.execFlowHold t s
  | .flowResume t => Sys2Proof.Machine.execFlowResume t s
  | .flowQuery t => Sys2Proof.Machine.execFlowQuery t s
  | .supplySet t => Sys2Proof.Machine.execSupplySet t s
  | .supplyQuery t => Sys2Proof.Machine.execSupplyQuery t s
  | .pendingDeadlineExpiry t flow => Sys2Proof.Machine.execPendingDeadlineExpiry t flow s
  | .gapDeadlineExpiry t flow => Sys2Proof.Machine.execGapDeadlineExpiry t flow s
  | .windowExpiry t => Sys2Proof.Machine.execWindowExpiry t s
  | .flowSliceComplete t => Sys2Proof.Machine.execFlowSliceComplete t s
  | .imageSliceComplete t => Sys2Proof.Machine.execImageSliceComplete t s
  | .sampleTime t => Sys2Proof.Machine.execSampleTime t s
  | .conversionComplete t raw => Sys2Proof.Machine.execConversionComplete t raw s

end Sys2Proof.Machine
end

