-- ==== Sys2Proof/Machine/Idle.lean ====
section
/-! DEFINITION. What the part does by itself when no command waits (log 2): the actions that are due, and the
happenings from outside that have no row of the table (log 9, log 18). -/

namespace Sys2Proof.Machine

/-! ## Outside happenings -/

/-- A field of an image record is damaged: new contents, wrong parity (log 9). A damaged state keeps its value
(log 25). -/
def ImageUpset.apply (r : ImageRecord) : ImageUpset → ImageRecord
  | .state => { r with bad := .state :: r.bad }
  | .tag v => { r with tag := v, bad := .tag :: r.bad }
  | .regionCount v => { r with regionCount := v, bad := .regionCount :: r.bad }
  | .extent v => { r with extent := v, bad := .extent :: r.bad }
  | .written v => { r with written := v, bad := .written :: r.bad }
  | .expected v => { r with expected := v, bad := .expected :: r.bad }
  | .level v => { r with level := v, bad := .level :: r.bad }
  | .refCount v => { r with refCount := v, bad := .refCount :: r.bad }

/-- A RECOVERING port counts one more run, to at most 128 (R154). -/
def PortUnit.countRun (u : PortUnit) : PortUnit :=
  if u.conf = .recovering then { u with recessiveRuns := min recoveryRuns (u.recessiveRuns + 1) } else u

/-- An outside happening acts on the state (log 9, log 18). The state of a damaged entry stays as it was (R24, R146;
log 25). -/
def State.happen (s : State) : Outside → State
  | .routeUpset n e => s.setRoute n { e with state := (s.route n).state, parityBad := true }
  | .targetUpset n e =>
    s.setTarget n { e with state := (s.target n).state, parityBad := true, tracker := (s.target n).tracker }
  | .imageUpset i u => s.setImage i (u.apply (s.image i))
  | .slotUpset i r v => s.setImage i { s.image i with slots := (s.image i).slots.set r ⟨v, true⟩ }
  | .checkUpset k v => { s with checkList := s.checkList.write k.val ⟨v, true⟩ }
  | .cellUpset c x => s.setCell c { s.cell c with content := x, parityBad := true }
  | .recessiveRun p => s.setPort p (s.port p).countRun

/-! ## Actions that are due -/

/-- The row of the table that takes a request (R163). -/
def Request.command (t : Time) : Request → Instr
  | .status => .status t
  | .faultsClear => .faultsClear t
  | .portSet => .portSet t
  | .portRestart => .portRestart t
  | .routeWrite => .routeWrite t
  | .routeRead => .routeRead t
  | .routingEnable => .routingEnable t
  | .targetWrite => .targetWrite t
  | .targetRead => .targetRead t
  | .imageBegin => .imageBegin t
  | .imageRegion => .imageRegion t
  | .imageChecks => .imageChecks t
  | .imageEnd => .imageEnd t
  | .imageDiscard => .imageDiscard t
  | .imageQuery => .imageQuery t
  | .windowOpen => .windowOpen t
  | .windowRenew => .windowRenew t
  | .windowClose => .windowClose t
  | .flowBind => .flowBind t
  | .flowRelease => .flowRelease t
  | .flowHold => .flowHold t
  | .flowResume => .flowResume t
  | .flowQuery => .flowQuery t
  | .supplySet => .supplySet t
  | .supplyQuery => .supplyQuery t

/-- The row that takes a frame at the head of the request queue (R14, R160). -/
def frameCommand (t : Time) (frame : CanFrame) : Instr :=
  if tagged frame then
    match requestNamed frame with
    | some r => r.command t
    | none => .unknown t
  else .requestWithoutTag t

/-- A command that is due when a condition holds. -/
def dueIf (c : Bool) (i : Instr) : List Instr := if c then [i] else []

/-- A port that carries traffic has a frame to send and no attempt in progress (R151). -/
def PortUnit.attemptDue (u : PortUnit) : Bool := u.conf.carries && !u.queue.isEmpty && u.sendingFrame.isNone

/-- The commands that are due at the present time: a waiting request, a reply or an alert with room, the times that
have been reached, the attempts that can begin, and a recovery that has observed its runs (R160, R161, R168, R50, R88,
R118, R128, R151, R154). -/
def State.dueCommands (s : State) : List Instr :=
  (s.nextFrame.map (frameCommand s.now)).toList
    ++ dueIf s.replyReady (.replyEnqueue s.now) ++ dueIf s.alertReady (.alertMove s.now)
    ++ dueIf s.windowDue (.windowExpiry s.now)
    ++ (allFlows.filter s.pendingDue).map (.pendingDeadlineExpiry s.now)
    ++ (allFlows.filter s.gapDue).map (.gapDeadlineExpiry s.now)
    ++ (allPorts.filter fun p => (s.port p).attemptDue).map (.transmissionAttemptStart s.now)
    ++ (allPorts.filter fun p => (s.port p).recovered).map (.recoveryComplete s.now)
    ++ dueIf s.sampleDue (.sampleTime s.now)

/-- What the part can do next by itself: a due command, or the oldest outside happening. -/
inductive Action where
  | command (i : Instr)
  | happening (o : Outside)
  deriving DecidableEq, Repr

/-- The actions open to the part. -/
def State.actions (s : State) : List Action := s.dueCommands.map .command ++ s.outside.head?.toList.map .happening

/-- One action is taken. What was due at once comes before a happening (log 1). -/
def State.act (s : State) : Action → Host.Outcome State Fault Refusal
  | .command i => exec i s
  | .happening o => .next (({ s.settle with outside := s.settle.outside.tail }).happen o)

/-- One of several actions, chosen freely (log 2). -/
def State.chooseAction (s : State) (l : List Action) : Host.Outcome State Fault Refusal :=
  match l[Config.firstTaken s.freeCount % l.length]? with
  | some a => ({ s with freeCount := s.freeCount + 1 }).act a
  | none => .next s

/-- A step on an empty queue: while RESET is held nothing; otherwise the one action that is open, a free choice among
several, or nothing (log 2, log 5). -/
def State.idle (s : State) : Host.Outcome State Fault Refusal :=
  if s.resetHeld then .next s
  else
    match s.actions with
    | [] => .next s
    | [a] => s.act a
    | l => s.chooseAction l

end Sys2Proof.Machine
end

