-- ==== Sys2Proof/Safety.lean ====
section
/-! DEFINITION. The terms the statements use: steps that go on, requests that are asked and answered, arrivals, and the
invariants. -/

namespace Sys2Proof

open Machine

/-- A step goes on: it answers a next state. -/
def GoesOn (s : State) : Prop := ∃ s', step s = .next s'

/-- Out of reset and between events (no offered frame is left over), and nothing that the part does at once is due: no
READY responder has a frame to take, and no reply and no alert has room (R160, R161, R168; log 1). -/
structure Running (s : State) : Prop where
  released : s.resetHeld = false
  offered : s.offers = []
  taken : s.mgmt.queue = [] ∨ s.mgmt.slot ≠ none
  replied : s.mgmt.slot = none ∨ s.room .trunk (.generated .reply) = false
  alerted : s.alerts.entries = [] ∨ s.alerts.inFlight = true ∨ s.room .trunk (.generated .alert) = false

/-- The commands that come from outside the responder: frames and bus events of the ports, expiries and completions. -/
def Instr.fromOutside : Instr → Bool
  | .frameArrival _ _ _ => true
  | .receptionError _ _ => true
  | .transmissionAttemptStart _ _ => true
  | .transmissionSuccess _ _ => true
  | .arbitrationLost _ _ => true
  | .transmissionError _ _ => true
  | .recoveryComplete _ _ => true
  | .pendingDeadlineExpiry _ _ => true
  | .gapDeadlineExpiry _ _ => true
  | .windowExpiry _ => true
  | .flowSliceComplete _ => true
  | .imageSliceComplete _ => true
  | .sampleTime _ => true
  | .conversionComplete _ _ => true
  | _ => false

/-! ## Requests (C9) -/

/-- The responder is READY and out of reset, between events, and the head of the request queue is a frame that names
request `r` and is long enough for its parameters (R14, R160). -/
structure Asked (s : State) (r : Request) (frame : CanFrame) (rest : List CanFrame) : Prop where
  running : s.resetHeld = false
  offered : s.offers = []
  ready : s.mgmt.slot = none
  queue : s.mgmt.queue = frame :: rest
  code : Request.ofByte (byteAt frame.data 0) = some r
  long : 2 + r.paramBytes frame.data ≤ frame.data.length

/-- The parameter bytes of a request frame (R14). -/
abbrev params (frame : CanFrame) : List Byte := frame.data.drop 2

/-- The state in which the responder carries a request out: the head frame has left the request queue (R160). -/
abbrev Taken (s : State) (t : Time) (rest : List CanFrame) : State :=
  { s with now := max s.now t, mgmt := ⟨rest, none⟩ }

/-- The reply, with these bytes after the code and the tag, waits in the reply slot; while TRUNK is OFF or RECOVERING it
is discarded (R15, R160, R161). -/
def Answered (u : State) (frame : CanFrame) (bytes : List Byte) : State :=
  if (u.port .trunk).conf.carries then
    { u with
      mgmt :=
        { u.mgmt with
          slot := some (generatedFrame (replyId u.strap) ([byteAt frame.data 0, byteAt frame.data 1] ++ bytes)) } }
  else u

/-- Outcome DONE with result fields (R15). -/
def doneBytes (fields : List Byte) : List Byte := [0x00, 0x00] ++ fields

/-- Outcome REFUSED with a reason value (R15). -/
def refusedBytes (reason : Byte) : List Byte := [0x01, reason]

/-- Outcome BUSY (R15). -/
def busyBytes : List Byte := [0x02, 0x03]

/-! ## Arrivals (C8) -/

/-- A frame without error arrives in ROUTING mode at a port that carries traffic, it is no management frame, and no
VALID target entry is damaged (R142, R144, R151). -/
structure RoutingArrival (s : State) (p : Port) (frame : CanFrame) : Prop where
  running : Running s
  routing : s.mode = .routing
  carries : (s.port p).conf.carries = true
  notManagement : frame.id ∉ managementIds s.strap
  sound : ∀ n, (s.target n).state = .valid → (s.target n).parityBad = false

/-- The frame carries the request identifier of VALID target `n` and of no other (R20). -/
structure RequestOf (s : State) (frame : CanFrame) (n : TargetId) : Prop where
  valid : (s.target n).state = .valid
  id : (s.target n).request = frame.id
  only : ∀ m, (s.target m).state = .valid → (s.target m).request = frame.id → m = n

/-- The frame carries the response identifier of VALID target `n`, and no other identifier of a VALID entry (R20). -/
structure ResponseOf (s : State) (frame : CanFrame) (n : TargetId) : Prop where
  valid : (s.target n).state = .valid
  id : (s.target n).response = frame.id
  only : ∀ m, (s.target m).state = .valid → (s.target m).response = frame.id → m = n
  noRequest : ∀ m, (s.target m).state = .valid → (s.target m).request ≠ frame.id

/-- Flow `f` is the one bound flow of target `n` (R19, R42). -/
structure BoundTo (s : State) (f : FlowId) (n : TargetId) : Prop where
  bound : (s.flow f).state ≠ .free
  target : (s.flow f).target = some n
  only : ∀ g, (s.flow g).state ≠ .free → (s.flow g).target = some n → g = f

/-- Target `n` has no bound flow (R19). -/
def Unbound (s : State) (n : TargetId) : Prop := ∀ g, (s.flow g).state ≠ .free → (s.flow g).target ≠ some n

/-- A dialogue request frame reaches the record of flow `f` of target `n` (R68). -/
structure RecordArrival (s : State) (frame : CanFrame) (f : FlowId) (n : TargetId) : Prop where
  arrival : RoutingArrival s .trunk frame
  request : RequestOf s frame n
  bound : BoundTo s f n
  opened : s.window.state = .opened

/-- A dialogue request frame that starts a parcel reaches the record of flow `f` of target `n` (R68, R74). -/
structure AdmissionArrival (s : State) (frame : CanFrame) (f : FlowId) (n : TargetId) : Prop where
  arrival : RoutingArrival s .trunk frame
  request : RequestOf s frame n
  bound : BoundTo s f n
  opened : s.window.state = .opened
  first : frameKind frame = .whole ∨ frameKind frame = .opener

/-- The request is taken in the flow's state (R76 step 4). -/
def TakenIn (k : FlowState) (c : UpdateCode) : Prop :=
  (k = .idle ∧ (c = .erase ∨ c = .open_ ∨ c = .activate)) ∨ (k = .loading ∧ (c = .block ∨ c = .close ∨ c = .abandon))

/-- Steps 1 to 4 of the admission checks and the form check pass (R76, R77). -/
structure Admissible (s : State) (f : FlowId) (frame : CanFrame) (c : UpdateCode) : Prop where
  code : UpdateCode.ofByte (requestCode frame) = some c
  free : (s.flow f).holds = ⟨false, false⟩
  settled : (s.flow f).pendingReq = none
  takes : TakenIn (s.flow f).state c
  wellFormed : firstMalformed frame = false
  form : illFormed c frame = false

/-- The parcel whose first frame was refused: one refusal is sent, and the record is REFUSED after an OPENER and absent
after a WHOLE (R82). -/
def RefusedFirst (u : State) (f : FlowId) (n : TargetId) (frame : CanFrame) (reason : Reason) (detail : Byte) : State :=
  (u.refuse n (requestCode frame) reason detail).setRecord f (if frameKind frame = .opener then some .refused else none)

/-- A frame has joined a transmit queue (R155). -/
def Enqueued (u : State) (p : Port) (k : QueueClass) (frame : CanFrame) : State :=
  u.setPort p { u.port p with queue := insertByKey ⟨frame, k, false⟩ (u.port p).queue }

/-- A plain frame has been offered to some ports: a copy joins where there is room and is dropped elsewhere (R143). -/
def OfferedTo (u : State) (egress : Port → Bool) (frame : CanFrame) : State :=
  let copy (q : Port) : PortUnit :=
    if egress q && u.room q .plain then { u.port q with queue := insertByKey ⟨frame, .plain, false⟩ (u.port q).queue }
    else u.port q
  { u with ports := ⟨copy .trunk, copy .seg0, copy .seg1, copy .seg2, copy .seg3⟩ }

/-- A plain frame has been offered to some ports at an event that can move an alert: the copies for segments join or are
dropped, and the copy for TRUNK waits for the event's end (R143, R162; log 28). -/
def OfferedInEvent (u : State) (egress : Port → Bool) (frame : CanFrame) : State :=
  { OfferedTo u (fun q => q != .trunk && egress q) frame with
    offers := if egress .trunk then [⟨.plain, frame, false⟩] else [] }

/-- A frame matches a route entry (R147). -/
def RouteHit (e : RouteEntry) (p : Port) (id : CanId) : Prop :=
  e.format = id.format ∧ e.ingress.has p = true ∧ id.value &&& e.matchMask = e.matchValue &&& e.matchMask

/-- Region `x` with number `r` is the one loaded region of the flow's image whose window holds the range, and no parity
error is read on the way to it (R78, R81). -/
structure InRegion (s : State) (f : FlowId) (n : TargetId) (frame : CanFrame) (r : Nat) (x : Region) : Prop where
  length : rangeLength frame ≠ 0
  unguarded : (s.target n).guards (rangeAddress frame) (rangeLength frame) = false
  fields : (s.imageOf f).bad = []
  slots : ∀ k : SlotId, k.val < (s.imageOf f).regionCount.getD 0 → ((s.imageOf f).slots.get k).parityBad = false
  loaded : (r, x) ∈ (s.imageOf f).regions
  holds : x.contains (rangeAddress frame) (rangeLength frame) = true
  only : ∀ q ∈ (s.imageOf f).regions, q.2.contains (rangeAddress frame) (rangeLength frame) = true → q = (r, x)

/-- The pool gives cell `c` to flow `f`: the flow is below its quota, and `c` is the lowest free cell (R99). -/
structure CellGiven (s : State) (f : FlowId) (c : CellId) : Prop where
  quota : (s.flow f).heldCells.length < (s.flow f).params.cellQuota
  unused : (s.cell c).inUse = false
  lowest : ∀ d, d < c → (s.cell d).inUse = true

/-- A response matches a pending request (R48). -/
def Answers (k : PendingKind) : Response → Prop
  | .positive code echo => code = k.code + 0x20 ∧ ∀ seq n r, k = .block seq n r → echo = seq
  | .refusal code _ => code = k.code
  | .wait code => code = k.code

/-- The bytes of a guard window parameter: present flag at byte `k`, then base and size code (R22). -/
def SpellsGuard (p : List Byte) (k : Nat) : Option AddrWindow → Prop
  | none => fieldAt p k 1 = 0
  | some w => fieldAt p k 1 = 1 ∧ fieldAt p (k + 1) 4 = w.base ∧ fieldAt p (k + 5) 1 = w.sizeCode
      ∧ w.sizeCode ≤ 15 ∧ w.base % windowSize w.sizeCode = 0

/-- The bytes of an identifier parameter: format at byte `k`, then the value, in the range of its format (R22). -/
def SpellsId (p : List Byte) (k : Nat) (i : CanId) : Prop :=
  fieldAt p k 1 = formatCode i.format ∧ fieldAt p (k + 1) 4 = i.value.toNat
    ∧ (i.format = .base → i.value.toNat ≤ 0x7FF)

/-- The parameters of TARGET WRITE give the VALID entry `e` (R22). -/
structure SpellsTarget (p : List Byte) (e : TargetEntry) : Prop where
  state : fieldAt p 1 1 = 1 ∧ e.state = .valid
  segment : fieldAt p 2 1 = e.segment.code
  request : SpellsId p 3 e.request
  response : SpellsId p 8 e.response
  guard0 : SpellsGuard p 13 e.guard0
  guard1 : SpellsGuard p 19 e.guard1
  fresh : e.parityBad = false ∧ e.tracker = .none

/-- The parameters of ROUTE WRITE give the VALID entry `e` (R148). -/
structure SpellsRoute (p : List Byte) (e : RouteEntry) : Prop where
  state : fieldAt p 1 1 = 1 ∧ e.state = .valid
  format : fieldAt p 2 1 = formatCode e.format
  matchValue : fieldAt p 3 4 = e.matchValue.toNat ∧ (e.format = .base → e.matchValue.toNat ≤ 0x7FF)
  matchMask : fieldAt p 7 4 = e.matchMask.toNat ∧ (e.format = .base → e.matchMask.toNat ≤ 0x7FF)
  ingress : fieldAt p 11 1 = e.ingress.toNat
  egress : fieldAt p 12 1 = e.egress.toNat
  cls : fieldAt p 13 1 = e.cls.code
  fresh : e.parityBad = false

/-- The parameters of IMAGE REGION give region `g` (R29 step 1). -/
structure SpellsRegion (p : List Byte) (g : Region) : Prop where
  base : fieldAt p 2 4 = g.base
  sizeCode : fieldAt p 6 1 = g.sizeCode
  length : fieldAt p 7 4 = g.length
  blockLength : fieldAt p 11 2 = g.blockLength
  erase : fieldAt p 13 1 = g.erase.toNat
  legal : g.sizeCode ≤ 15 ∧ g.base % windowSize g.sizeCode = 0 ∧ 0 < g.length ∧ g.length ≤ windowSize g.sizeCode
    ∧ g.blockLength ∈ [256, 512, 1024, 2048, 4096]

/-- One bound parameter of FLOW BIND: its default when its mask bit is set, else the value of its byte, in range (R41). -/
def BoundParam (p : List Byte) (bit : Nat) (value default : Nat) (coded : Nat → Prop) : Prop :=
  if (byteAt p 3).getLsbD bit then value = default else coded (fieldAt p (4 + bit) 1)

/-- The parameters of FLOW BIND give the bound parameters `q` (R41). -/
structure SpellsParams (p : List Byte) (q : FlowParams) : Prop where
  level : BoundParam p 0 q.level 3 fun x => x ≤ 7 ∧ q.level = x
  retryLimit : BoundParam p 1 q.retryLimit 4 fun x => x ≤ 15 ∧ q.retryLimit = if x = 0 then 16 else x
  progressInterval : BoundParam p 2 q.progressInterval 0 fun x => q.progressInterval = x
  responseTime : BoundParam p 3 q.responseTime 200 fun x => x ≠ 0 ∧ q.responseTime = 10 * x
  waitExtension : BoundParam p 4 q.waitExtension 5000 fun x => x ≠ 0 ∧ q.waitExtension = 100 * x
  gapLimit : BoundParam p 5 q.gapLimit 1000 fun x => x ≠ 0 ∧ q.gapLimit = 10 * x
  cellQuota : BoundParam p 6 q.cellQuota 48 fun x => 8 ≤ x ∧ x ≤ 128 ∧ q.cellQuota = x

/-- The bytes TARGET READ reports for a guard window: present flag, base and size code; those of an absent window have no
value in the manual (R23, log 10). -/
def GuardReport (bytes : List Byte) : Option AddrWindow → Prop
  | some w => bytes = b1 1 ++ be 4 w.base ++ b1 w.sizeCode
  | none => bytes.length = 6 ∧ bytes.head? = some 0

/-- One of the five fields that a loading request reads is damaged: state, reference count, region count, extent, written
map (R37). -/
abbrev LoadFieldsDamaged (r : ImageRecord) : Prop :=
  ImageField.state ∈ r.bad ∨ ImageField.refCount ∈ r.bad ∨ ImageField.regionCount ∈ r.bad ∨ ImageField.extent ∈ r.bad
    ∨ ImageField.written ∈ r.bad

/-- An extent of `count` entries from index `k` lies in the check list memory and meets no extent of the list (R27). -/
def ExtentFits (l : List ExtentEntry) (count k : Nat) : Prop :=
  k + count ≤ 4096 ∧ ∀ e ∈ l, k + count ≤ e.first ∨ e.first + e.count ≤ k

/-- The extent list in ascending order of first index, disjoint, inside the memory, none empty (R27). -/
def ExtentsOrdered (l : List ExtentEntry) : Prop :=
  l.Pairwise (fun a b => a.first + a.count ≤ b.first) ∧ ∀ e ∈ l, 0 < e.count ∧ e.first + e.count ≤ 4096

/-- The settings of SUPPLY SET are within their values, and the enabled limits are in order (R139). -/
structure LegalSettings (g : SupplySettings) : Prop where
  period : 1 ≤ g.period ∧ g.period ≤ 50
  offset : -2048 ≤ g.offset ∧ g.offset ≤ 2047
  limits : g.lowLimit ≤ 32767 ∧ g.criticalLimit ≤ 32767 ∧ g.restoreLimit ≤ 32767
  depth : 1 ≤ g.depth ∧ g.depth ≤ 8
  criticalLow : g.criticalLimit ≠ 0 → g.lowLimit ≠ 0 → g.criticalLimit < g.lowLimit
  lowRestore : g.lowLimit ≠ 0 → g.restoreLimit ≠ 0 → g.lowLimit ≤ g.restoreLimit
  criticalRestore : g.criticalLimit ≠ 0 → g.restoreLimit ≠ 0 → g.criticalLimit < g.restoreLimit

/-- The confinement state of a port in ACTIVE or PASSIVE with these counts (R152). -/
def judgedState (txErrors rxErrors : Nat) : Confinement :=
  if 128 ≤ txErrors ∨ 128 ≤ rxErrors then .passive else .active

/-- The state in which the classifier takes a frame received at time `t`: 1 is taken from the receive error count, and
the confinement state is judged (R151, R152). -/
def Received (s : State) (t : Time) (p : Port) : State :=
  { s.advance t with
    ports := s.ports.set p
      { s.port p with
        rxErrors := (s.port p).rxErrors - 1
        conf := judgedState (s.port p).txErrors ((s.port p).rxErrors - 1) } }

/-! ## Invariants -/

/-- A transmit queue in order of arbitration key (R155). -/
def KeysOrdered (l : List QueuedFrame) : Prop := l.Pairwise fun a b => idKey a.frame.id ≤ idKey b.frame.id

/-- What every port keeps: at most 32 frames, in order of key, within the shares of R156, and none while the port is
OFF or RECOVERING (R153, R155, R156). -/
structure PortOk (p : Port) (u : PortUnit) : Prop where
  size : u.queue.length ≤ 32
  ordered : KeysOrdered u.queue
  plain : u.plainCount ≤ 24
  forwarded : p = .trunk → u.forwardedCount ≤ 28
  generated : p ≠ .trunk → ∀ q ∈ u.queue, ∀ k, q.cls ≠ .generated k
  emptyWhenOff : u.conf.carries = false → u.queue = []
  received : u.rxErrors ≤ 255

/-- Every port keeps `PortOk`, and the request queue holds at most 4 frames (R159). -/
def QueuesOk (s : State) : Prop := (∀ p, PortOk p (s.port p)) ∧ s.mgmt.queue.length ≤ 4

/-- The sets of gate requests are held ascending (R127, R137). -/
structure GatesAscending (s : State) : Prop where
  waiting : s.supply.waiting.Pairwise (· < ·)
  served : ∀ done flows, s.supply.converter = .converting done flows → flows.Pairwise (· < ·)

/-- The alert queue holds at most one entry per key (R166). -/
def AlertKeysDistinct (s : State) : Prop := (s.alerts.entries.map Alert.key).Nodup

/-- The check list memory is in its canonical form (log 7). -/
def CheckListOk (s : State) : Prop := s.checkList.wf = true

/-- A VALID target entry whose stored fields are not damaged. -/
def Sound (s : State) (n : TargetId) : Prop := (s.target n).state = .valid ∧ (s.target n).parityBad = false

/-- The identifiers of the undamaged VALID entries and the management identifiers are pairwise distinct, and while RESET
is held no entry is VALID (R20). -/
structure IdsDistinct (s : State) : Prop where
  held : s.resetHeld = true → ∀ n, (s.target n).state = .empty
  management : ∀ n, Sound s n →
    (s.target n).request ∉ managementIds s.strap ∧ (s.target n).response ∉ managementIds s.strap
  own : ∀ n, Sound s n → (s.target n).request ≠ (s.target n).response
  others : ∀ n m, Sound s n → Sound s m → n ≠ m →
    (s.target n).request ≠ (s.target m).request ∧ (s.target n).request ≠ (s.target m).response
      ∧ (s.target n).response ≠ (s.target m).response

/-- The state a flow's pending request puts it in (R40, R47). -/
def requestStates : List FlowState := [.erasing, .opening, .closing, .abandoning, .activating]

/-- What a flow context keeps: its state, its pending request, its parcel record, its cells and its open region agree
(R38, R39, R40, R63, R72, R100). -/
structure FlowOk (c : FlowCtx) : Prop where
  bound : c.state ≠ .free → c.binding.isSome = true
  unbound : c.state = .free → c.binding = none
  pendingNamesState : ∀ p, c.pendingReq = some p → p.kind.state = c.state
  requestStateHasPending : c.state ∈ requestStates → c.pendingReq.isSome = true
  openRegion : c.openRegion.isSome = true ↔ c.state = .loading ∨ c.state = .closing
  inspected : ∀ p, c.record = some (.inspected p) → c.state = .loading ∧ c.pendingReq = none
  gated : ∀ g, c.record = some (.gated g) → c.state = .idle
  held : c.held.isSome = true → ∃ r, c.record = some r ∧ ((∃ p, r = .inspected p) ∨ ∃ g, r = .gated g)
  gatedHeld : ∀ g, c.record = some (.gated g) → c.held.isSome = true
  cells : c.fifo ≠ [] → ∃ p, c.record = some (.inspected p)
  noHolds : c.state.atWork = false → c.holds = HoldCauses.empty
  condition : c.condition.isSome = true ↔ c.state = .failed

/-- Every flow keeps `FlowOk`, and while the window is CLOSED no flow is at work (R121). -/
structure FlowsOk (s : State) : Prop where
  each : ∀ f, FlowOk (s.flow f)
  closed : s.window.state = .closed → ∀ f, (s.flow f).state.atWork = false

/-- No two flows that are not FREE are bound to one target (R42). -/
def TargetsBoundOnce (s : State) : Prop :=
  ∀ f g n, (s.flow f).state ≠ .free → (s.flow g).state ≠ .free → (s.flow f).target = some n →
    (s.flow g).target = some n → f = g

/-- The pool and the flows agree: a cell is in use when exactly one flow holds it, no flow passes its quota, a slice that
is not abandoned is at the head of its flow's FIFO, and an idle engine leaves no FIFO waiting (R99 to R101, R105,
R106). -/
structure PoolOk (s : State) : Prop where
  inUse : ∀ c, (s.cell c).inUse = true ↔ ∃ f, c ∈ (s.flow f).heldCells
  once : ∀ f, (s.flow f).heldCells.Nodup
  alone : ∀ f g c, c ∈ (s.flow f).heldCells → c ∈ (s.flow g).heldCells → f = g
  quota : ∀ f, (s.flow f).heldCells.length ≤ (s.flow f).params.cellQuota
  slice : ∀ f c x, s.engine = some ⟨.flow f c x, false⟩ → (s.flow f).fifo.head? = some c
  idle : s.engine = none → ∀ f, (s.flow f).fifo = []

/-- The cells all flows hold together (R101). -/
def cellsHeld (s : State) : Nat := (allFlows.map fun f => (s.flow f).heldCells.length).sum

end Sys2Proof
end

