-- ==== Sys2Proof/Certificates/Slice0/Obligations.lean ====
section
/-! DEFINITION. The statements for the provers. -/

open Sys2Proof Sys2Proof.Machine

/-! ## The step -/

/-- A step with a command at the front of the queue is that command's meaning on the state with the queue's rest. -/
def Obligations.StepRunsFrontCommand : Prop :=
  ∀ (c : Instr) (s : State), step { s with pending := c :: s.pending } = exec c s

/-- No command and no step ends in a fault or a refusal, and no command touches the queue of commands or of outside
happenings or takes the time back. On an empty queue of commands (log 2) a step does nothing while RESET is held, and
otherwise takes a command that is due at the present time, or the oldest outside happening, or, when there is neither,
nothing; which one of several is free. A happening comes after what is due at once (log 1); damage marks the parity wrong
(log 9) and leaves the state of an entry and of an image (log 25), and a run of recessive bits is counted by a RECOVERING
port (log 18). -/
def Obligations.EveryStepGoesOnAndIdleActs : Prop :=
  (∀ s, GoesOn s)
  ∧ (∀ (c : Instr) (s : State), ∃ s', exec c s = .next s' ∧ s'.pending = s.pending ∧ s'.outside = s.outside
    ∧ s.now ≤ s'.now)
  ∧ (∀ s : State, s.pending = [] → s.resetHeld = true → step s = .next s)
  ∧ (∀ (t : Time) (frame : CanFrame),
    let named := Request.ofByte (byteAt frame.data 0)
    (frame.data.length < 2 → frameCommand t frame = .requestWithoutTag t)
    ∧ (2 ≤ frame.data.length → named = none → frameCommand t frame = .unknown t)
    ∧ ∀ r, 2 ≤ frame.data.length → named = some r → frameCommand t frame = r.command t)
  ∧ ∀ s : State, s.pending = [] → s.resetHeld = false →
    let due (c : Instr) : Prop :=
      (∃ frame, s.mgmt.slot = none ∧ s.mgmt.queue.head? = some frame ∧ c = frameCommand s.now frame)
      ∨ (c = .replyEnqueue s.now ∧ s.mgmt.slot ≠ none ∧ s.room .trunk (.generated .reply) = true)
      ∨ (c = .alertMove s.now ∧ s.alerts.entries ≠ [] ∧ s.alerts.inFlight = false
        ∧ s.room .trunk (.generated .alert) = true)
      ∨ (c = .windowExpiry s.now ∧ s.window.state = .opened ∧ ∃ e, s.window.expiry = some e ∧ e ≤ s.now)
      ∨ (∃ f q, c = .pendingDeadlineExpiry s.now f ∧ (s.flow f).pendingReq = some q ∧ q.deadline ≤ s.now)
      ∨ (∃ f p d, c = .gapDeadlineExpiry s.now f ∧ (s.flow f).record = some (.inspected p) ∧ p.gapDeadline = some d
        ∧ d ≤ s.now)
      ∨ (∃ p, c = .transmissionAttemptStart s.now p ∧ (s.port p).conf.carries = true ∧ (s.port p).queue ≠ []
        ∧ ∀ q ∈ (s.port p).queue, q.sending = false)
      ∨ (∃ p, c = .recoveryComplete s.now p ∧ (s.port p).conf = .recovering ∧ 128 ≤ (s.port p).recessiveRuns)
      ∨ (c = .sampleTime s.now ∧ s.supply.nextSample ≤ s.now)
    let happened (u : State) : Outside → State := fun o => match o with
      | .routeUpset n e => u.setRoute n { e with state := (u.route n).state, parityBad := true }
      | .targetUpset n e =>
        u.setTarget n { e with state := (u.target n).state, parityBad := true, tracker := (u.target n).tracker }
      | .imageUpset i x =>
        let r := u.image i
        u.setImage i (match x with
          | .state => { r with bad := .state :: r.bad }
          | .tag v => { r with tag := v, bad := .tag :: r.bad }
          | .regionCount v => { r with regionCount := v, bad := .regionCount :: r.bad }
          | .extent v => { r with extent := v, bad := .extent :: r.bad }
          | .written v => { r with written := v, bad := .written :: r.bad }
          | .expected v => { r with expected := v, bad := .expected :: r.bad }
          | .level v => { r with level := v, bad := .level :: r.bad }
          | .refCount v => { r with refCount := v, bad := .refCount :: r.bad })
      | .slotUpset i k v => u.setImage i { u.image i with slots := (u.image i).slots.set k ⟨v, true⟩ }
      | .checkUpset k v => { u with checkList := u.checkList.write k.val ⟨v, true⟩ }
      | .cellUpset c x => u.setCell c { u.cell c with content := x, parityBad := true }
      | .recessiveRun p =>
        u.setPort p
          (if (u.port p).conf = .recovering then
            { u.port p with recessiveRuns := min 128 ((u.port p).recessiveRuns + 1) }
          else u.port p)
    let free := { s with freeCount := s.freeCount + 1 }
    (∀ c, c ∈ s.dueCommands ↔ due c)
    ∧ (s.dueCommands = [] → s.outside = [] → step s = .next s)
    ∧ (∀ c, s.dueCommands = [c] → s.outside = [] → step s = exec c s)
    ∧ (∀ o rest, s.dueCommands = [] → s.outside = o :: rest →
      step s = .next (happened { s.settle with outside := rest } o))
    ∧ (2 ≤ s.dueCommands.length + min 1 s.outside.length →
      (∃ c ∈ s.dueCommands, step s = exec c free)
      ∨ ∃ o rest, s.outside = o :: rest ∧ step s = .next (happened { free.settle with outside := rest } o))

/-! ## Reset (00_scope.md) -/

/-- The values the spec gives for a device reset; the form of parity is the model's (log 8). -/
def Obligations.ResetValues : Prop :=
  let s := State.reset
  (s.mode = .passthrough ∧ s.defaultAction = .flood)
  ∧ (∀ n, (s.route n).state = .empty ∧ (s.route n).format = .base ∧ (s.route n).matchValue = 0
      ∧ (s.route n).matchMask = 0 ∧ (s.route n).ingress = 0 ∧ (s.route n).egress = 0 ∧ (s.route n).cls = .plain
      ∧ (s.route n).parityBad = false)
  ∧ (∀ n, (s.target n).state = .empty ∧ (s.target n).segment = .seg0 ∧ (s.target n).request = ⟨.base, 0⟩
      ∧ (s.target n).response = ⟨.base, 0⟩ ∧ (s.target n).guard0 = none ∧ (s.target n).guard1 = none
      ∧ (s.target n).tracker = .none ∧ (s.target n).parityBad = false)
  ∧ (∀ i, (s.image i).state = .empty ∧ (s.image i).tag = 0 ∧ (s.image i).regionCount = none
      ∧ (∀ r, ((s.image i).slots.get r).region = none) ∧ (s.image i).extent = none ∧ (s.image i).written = none
      ∧ (s.image i).expected = none ∧ (s.image i).level = none ∧ (s.image i).refCount = 0
      ∧ (s.image i).progress = none ∧ (s.image i).acc = none)
  ∧ s.extents = []
  ∧ (∀ f, s.flow f =
      { state := .free, binding := none, openRegion := none, expectedSeq := 1, lastAccepted := none,
        acceptedBlocks := 0, acceptedBytes := 0, pendingReq := none, record := none, held := none, fifo := [],
        acc := 0xFFFFFFFF, holds := ⟨false, false⟩, failures := 0, lastVerdict := none, lastRefusal := none,
        condition := none, activationUnknown := false, late := none, sinceProgress := 0 })
  ∧ (∀ c, (s.cell c).inUse = false)
  ∧ s.engine = none
  ∧ s.window = ⟨.closed, none, none, .none⟩
  ∧ (s.supply.settings = ⟨5, 0, 11000, 9500, 11500, 3⟩ ∧ s.supply.state = .low ∧ s.supply.run = none
      ∧ s.supply.lastSample = none ∧ s.supply.converter = .idle ∧ s.supply.periodicDue = false
      ∧ s.supply.waiting = [])
  ∧ (∀ p, s.port p =
      { nominal := .k500, dataRate := .m2, autoRecovery := true, txErrors := 0, rxErrors := 0, conf := .active,
        recessiveRuns := 0, queue := [] })
  ∧ (s.mgmt.queue = [] ∧ s.mgmt.slot = none)
  ∧ (s.alerts.entries = [] ∧ s.alerts.inFlight = false)
  ∧ s.faults.line = false

/-- DEVICE_RESET takes every piece of the part's state to its reset value; RESET_RELEASE samples the straps and sets the
next sample time. The model's own queues, its time and its counter go on through a reset, and while RESET is held every
other command changes only the time (the model's reading, log 4, log 5). -/
def Obligations.ResetAndRelease : Prop :=
  (∀ (s : State) (t : Time), exec (.deviceReset t) s =
    .next { State.reset with
      pending := s.pending, outside := s.outside, now := max s.now t, freeCount := s.freeCount })
  ∧ (∀ (s : State) (t : Time) (straps : BitVec 3), s.resetHeld = true → exec (.resetRelease t straps) s =
    .next { s with
      now := max s.now t, resetHeld := false, strap := straps,
      supply := { s.supply with nextSample := max s.now t } })
  ∧ (∀ (s : State) (t : Time) (straps : BitVec 3), s.resetHeld = false →
    exec (.resetRelease t straps) s = .next { s with now := max s.now t })
  ∧ ∀ (s : State) (c : Instr), s.resetHeld = true → (∀ t, c ≠ .deviceReset t) → (∀ t k, c ≠ .resetRelease t k) →
    ∃ t, exec c s = .next { s with now := max s.now t }

/-! ## The port units (C8) -/

/-- RECEPTION_ERROR counts 1, to at most 255, and TRANSMISSION_ERROR within 255 counts 8 and keeps the frame queued; the
confinement state is judged from the counts. A port in OFF or RECOVERING counts no reception, and without an attempt in
progress there is no transmission error (log 4). -/
def Obligations.ErrorsAreCounted : Prop :=
  ∀ (s : State) (t : Time) (p : Port), Running s →
    ((s.port p).conf.carries = true → exec (.receptionError t p) s =
      .next { s with
        now := max s.now t
        ports := s.ports.set p
          { s.port p with
            rxErrors := min 255 ((s.port p).rxErrors + 1)
            conf := judgedState (s.port p).txErrors (min 255 ((s.port p).rxErrors + 1)) } })
    ∧ ((s.port p).conf.carries = false → exec (.receptionError t p) s = .next { s with now := max s.now t })
    ∧ ((s.port p).conf.carries = true → (∃ q ∈ (s.port p).queue, q.sending = true) → (s.port p).txErrors + 8 ≤ 255 →
      exec (.transmissionError t p) s =
        .next { s with
          now := max s.now t
          ports := s.ports.set p
            { s.port p with
              queue := (s.port p).queue.map fun q => { q with sending := false }
              txErrors := (s.port p).txErrors + 8
              conf := judgedState ((s.port p).txErrors + 8) (s.port p).rxErrors } })
    ∧ ((∀ q ∈ (s.port p).queue, q.sending = false) →
      exec (.transmissionError t p) s = .next { s with now := max s.now t })

/-- TRANSMISSION_ATTEMPT_START takes the head of the queue of a port that carries traffic and has no attempt in progress,
and otherwise changes only the time (log 4); ARBITRATION_LOST keeps the frame queued and the counts as they are;
TRANSMISSION_SUCCESS removes the frame, takes 1 from the transmit error count, judges the state, and clears the in-flight
mark when the frame was an alert; without an attempt in progress it changes only the time (log 4). -/
def Obligations.AttemptsAndSuccess : Prop :=
  (∀ (s : State) (t : Time) (p : Port), Running s →
    (∀ q rest, (s.port p).conf.carries = true → (s.port p).queue = q :: rest →
      (∀ x ∈ q :: rest, x.sending = false) →
      exec (.transmissionAttemptStart t p) s =
        .next { s with
          now := max s.now t
          ports := s.ports.set p { s.port p with queue := { q with sending := true } :: rest } })
    ∧ ((s.port p).conf.carries = false ∨ (s.port p).queue = [] ∨ (∃ x ∈ (s.port p).queue, x.sending = true) →
      exec (.transmissionAttemptStart t p) s = .next { s with now := max s.now t })
    ∧ exec (.arbitrationLost t p) s =
        .next { s with
          now := max s.now t
          ports := s.ports.set p
            { s.port p with queue := (s.port p).queue.map fun q => { q with sending := false } } }
    ∧ ((∀ q ∈ (s.port p).queue, q.sending = false) →
      exec (.transmissionSuccess t p) s = .next { s with now := max s.now t }))
  ∧ ∀ (s : State) (t : Time) (p : Port) (before after : List QueuedFrame) (q : QueuedFrame), Running s →
    (s.port p).conf.carries = true → (s.port p).queue = before ++ q :: after → q.sending = true →
    (∀ x ∈ before, x.sending = false) →
    exec (.transmissionSuccess t p) s =
      .next { s with
        now := max s.now t
        ports := s.ports.set p
          { s.port p with
            queue := before ++ after
            txErrors := (s.port p).txErrors - 1
            conf := judgedState ((s.port p).txErrors - 1) (s.port p).rxErrors }
        alerts :=
          { s.alerts with
            inFlight := if q.cls = .generated .alert then false else s.alerts.inFlight } }

/-- TRANSMISSION_ERROR that takes the transmit error count past 255 takes the port to OFF, or on to RECOVERING, and empties
its queue, with the in-flight mark of a lost alert (R153, R154, R168). TRUNK also loses a waiting reply. At a segment the
flows are taken in ascending number: one whose target entry is damaged fails with TABLE_FAULT, TARGET and no refusal; one
on the segment loses an INSPECTED parcel or a GATED request with refusal BROKEN, detail 5; any other is left; the refusals
join TRUNK at the event's end (R162, log 28; `trunkTakes` and `refuse` are written out in DueActionsTakenAtOnce and
ReportsQueued, the codes of a gated request in GateAnswersAct). RECOVERY_COMPLETE makes a RECOVERING port that has counted
128 recessive runs ACTIVE with both counts 0, and otherwise changes only the time (log 4; the runs are counted by
happenings that have no row, log 18). -/
def Obligations.PortsEnterAndLeaveOff : Prop :=
  (∀ (s : State) (t : Time), Running s → (∃ q ∈ (s.port .trunk).queue, q.sending = true) →
    255 < (s.port .trunk).txErrors + 8 →
    exec (.transmissionError t .trunk) s =
      .next { s with
        now := max s.now t
        ports := s.ports.set .trunk
          { s.port .trunk with
            queue := []
            txErrors := (s.port .trunk).txErrors + 8
            conf := if (s.port .trunk).autoRecovery then .recovering else .off
            recessiveRuns := 0 }
        mgmt := { s.mgmt with slot := none }
        alerts :=
          { s.alerts with
            inFlight :=
              if ∃ q ∈ (s.port .trunk).queue, q.cls = .generated .alert then false else s.alerts.inFlight } })
  ∧ (∀ (s : State) (t : Time) (p : Port), Running s → p ≠ .trunk → (∃ q ∈ (s.port p).queue, q.sending = true) →
    255 < (s.port p).txErrors + 8 →
    let emptied : PortUnit := { s.port p with queue := [], txErrors := (s.port p).txErrors + 8 }
    let w := (List.finRange 16).foldl (State.portReadsFlow p)
      { s with
        now := max s.now t
        ports := s.ports.set p { emptied with conf := .off }
        alerts :=
          { s.alerts with
            inFlight := if ∃ q ∈ (s.port p).queue, q.cls = .generated .alert then false else s.alerts.inFlight } }
    exec (.transmissionError t p) s =
      .next (State.trunkTakes
        { w with
          ports := w.ports.set p
            { emptied with conf := if (s.port p).autoRecovery then .recovering else .off, recessiveRuns := 0 } }))
  ∧ (∀ (s : State) (f : FlowId) (p : Port),
    ((s.flow f).state = .free → State.portReadsFlow p s f = s)
    ∧ ∀ n, (s.flow f).state ≠ .free → (s.flow f).target = some n →
      ((s.target n).parityBad = true → State.portReadsFlow p s f = (s.raiseFault .target).failFlow f .tableFault)
      ∧ ((s.target n).parityBad = false → p ≠ (s.target n).segment.port → State.portReadsFlow p s f = s)
      ∧ ((s.target n).parityBad = false → p = (s.target n).segment.port →
        (∀ x, (s.flow f).record = some (.inspected x) →
          State.portReadsFlow p s f = s.endBroken f n (s.flow f).held.isSome)
        ∧ (∀ g, (s.flow f).record = some (.gated g) →
          State.portReadsFlow p s f =
            (((s.freeFlowCells f).withdrawGate f).setRecord f none).refuse n g.code .broken 0x05)
        ∧ ((s.flow f).record = none ∨ (s.flow f).record = some .refused
            ∨ (∃ d k, (s.flow f).record = some (.passing d k)) →
          State.portReadsFlow p s f = s)))
  ∧ ∀ (s : State) (t : Time) (p : Port), Running s →
    ((s.port p).conf = .recovering → 128 ≤ (s.port p).recessiveRuns → exec (.recoveryComplete t p) s =
      .next { s with
        now := max s.now t
        ports := s.ports.set p
          { s.port p with txErrors := 0, rxErrors := 0, conf := .active, recessiveRuns := 0 } })
    ∧ ((s.port p).conf ≠ .recovering ∨ (s.port p).recessiveRuns < 128 →
      exec (.recoveryComplete t p) s = .next { s with now := max s.now t })

/-- The room a queue has for a class, and what an offer does with it (R156). -/
def Obligations.QueueRoom : Prop :=
  ∀ (s : State) (p : Port),
    let plain := (s.port p).queue.countP fun q => q.cls = .plain
    let forwarded := (s.port p).queue.countP fun q => q.cls = .plain ∨ q.cls = .dialogue
    (∀ k, s.room p k = true → ((s.port p).conf = .active ∨ (s.port p).conf = .passive) ∧ (s.port p).queue.length < 32)
    ∧ (((s.port p).conf = .active ∨ (s.port p).conf = .passive) → (s.port p).queue.length < 32 →
      (s.room p .plain = true ↔
        plain < 24 ∧ (p = .trunk → forwarded < 28))
      ∧ (s.room p .dialogue = true ↔ (p = .trunk → forwarded < 28))
      ∧ ∀ k, s.room p (.generated k) = true ↔ p = .trunk)
    ∧ (∀ k frame, s.room p k = true → s.offer p k frame = Enqueued s p k frame)
    ∧ (∀ k frame, s.room p k = false → s.offer p k frame = s)

/-- A frame joins a queue after every frame of lower or equal key and before every frame of higher key; the key orders
by the 11 most significant bits, then base before extended, then the remaining 18 bits (R155). -/
def Obligations.JoinsInKeyOrder : Prop :=
  (∀ (q : QueuedFrame) (l : List QueuedFrame), KeysOrdered l →
    ∃ before after, l = before ++ after ∧ insertByKey q l = before ++ q :: after
      ∧ (∀ x ∈ before, idKey x.frame.id ≤ idKey q.frame.id) ∧ ∀ x ∈ after, idKey q.frame.id < idKey x.frame.id)
  ∧ ∀ a b : BitVec 29,
    (a.toNat < 2 ^ 11 → b.toNat < 2 ^ 11 → (idKey ⟨.base, a⟩ < idKey ⟨.base, b⟩ ↔ a.toNat < b.toNat))
    ∧ (a.toNat < 2 ^ 11 → (idKey ⟨.base, a⟩ < idKey ⟨.extended, b⟩ ↔ a.toNat ≤ b.toNat / 2 ^ 18))
    ∧ (idKey ⟨.extended, a⟩ < idKey ⟨.extended, b⟩ ↔ a.toNat < b.toNat)

/-! ## Arrivals (C8) -/

/-- A request frame on TRUNK joins the request queue, or is discarded when 4 frames wait; every other management frame is
dropped; a port in OFF or RECOVERING receives nothing. In PASSTHROUGH mode every other frame is offered to the four other
ports, each by its own room. The management identifiers follow the strap value (R158). -/
def Obligations.ManagementAndPassthroughArrivals : Prop :=
  (∀ (s : State) (t : Time) (p : Port) (frame : CanFrame), Running s →
    ((s.port p).conf.carries = true → p = .trunk → frame.id = requestId s.strap → s.mgmt.queue.length < 4 →
      exec (.frameArrival t p frame) s =
        .next { Received s t p with mgmt := { s.mgmt with queue := s.mgmt.queue ++ [frame] } })
    ∧ ((s.port p).conf.carries = true → frame.id = requestId s.strap → p ≠ .trunk ∨ 4 ≤ s.mgmt.queue.length →
      exec (.frameArrival t p frame) s = .next (Received s t p))
    ∧ ((s.port p).conf.carries = true → frame.id = replyId s.strap ∨ frame.id = alertId s.strap →
      exec (.frameArrival t p frame) s = .next (Received s t p))
    ∧ ((s.port p).conf.carries = false → exec (.frameArrival t p frame) s = .next { s with now := max s.now t }))
  ∧ (∀ (s : State) (t : Time) (p : Port) (frame : CanFrame), Running s → s.mode = .passthrough →
    (s.port p).conf.carries = true → frame.id ∉ managementIds s.strap →
    exec (.frameArrival t p frame) s = .next (OfferedTo (Received s t p) (fun q => q != p) frame))
  ∧ ∀ strap : BitVec 3,
    requestId strap = ⟨.base, BitVec.ofNat 29 (0x7A0 + 4 * strap.toNat)⟩
    ∧ replyId strap = ⟨.base, BitVec.ofNat 29 (0x7A0 + 4 * strap.toNat + 1)⟩
    ∧ alertId strap = ⟨.base, BitVec.ofNat 29 (0x7A0 + 4 * strap.toNat + 2)⟩
    ∧ managementIds strap = [requestId strap, replyId strap, alertId strap]

/-- In ROUTING mode a frame that names no target follows the first matching route entry, and the default action when no
entry matches. -/
def Obligations.RoutesDecide : Prop :=
  ∀ (s : State) (t : Time) (p : Port) (frame : CanFrame), RoutingArrival s p frame →
    (∀ m, (s.target m).state = .valid → (s.target m).request ≠ frame.id ∧ (s.target m).response ≠ frame.id) →
    (∀ r, (s.route r).state = .valid → (s.route r).parityBad = false → RouteHit (s.route r) p frame.id →
      (∀ q, q < r → (s.route q).state = .valid →
        (s.route q).parityBad = false ∧ ¬ RouteHit (s.route q) p frame.id) →
      exec (.frameArrival t p frame) s =
        .next (if (s.route r).cls = .blocked then Received s t p
          else OfferedTo (Received s t p) (fun q => q != p && (s.route r).egress.has q) frame))
    ∧ ((∀ q, (s.route q).state = .valid → (s.route q).parityBad = false ∧ ¬ RouteHit (s.route q) p frame.id) →
      exec (.frameArrival t p frame) s =
        .next (if s.defaultAction = .drop then Received s t p
          else OfferedTo (Received s t p) (fun q => q != p) frame))

/-- A damaged route entry that a lookup reads is marked DAMAGED, passed over, and reported by the ROUTE flag, and the lookup
goes on: a later matching entry decides, or the default action when none matches; which takes a slot of TRUNK first, the
frame's copy or the FAULT alert that the same lookup queues, is free where the order decides (R162; that it holds for a
plain frame too is the model's reading, log 28); a damaged target entry drops every frame that is no management frame,
raises TARGET, and fails its bound flow at work; a dialogue frame that arrives at another port than its own is dropped. -/
def Obligations.ArrivalsDroppedOrDamaged : Prop :=
  ((∀ (s : State) (t : Time) (p : Port) (frame : CanFrame) (r : RouteId), RoutingArrival s p frame →
    (∀ m, (s.target m).state = .valid → (s.target m).request ≠ frame.id ∧ (s.target m).response ≠ frame.id) →
    (s.route r).state = .valid → (s.route r).parityBad = true →
    let marked := ((Received s t p).setRoute r { s.route r with state := .damaged }).raiseFault .route
    let passed (q : RouteId) : Prop :=
      (s.route q).state = .valid → (s.route q).parityBad = false ∧ ¬ RouteHit (s.route q) p frame.id
    (∀ k, r < k → (s.route k).state = .valid → (s.route k).parityBad = false → RouteHit (s.route k) p frame.id →
      (∀ q, q < k → q ≠ r → passed q) →
      exec (.frameArrival t p frame) s =
        .next (if (s.route k).cls = .blocked then marked
          else (OfferedInEvent marked (fun q => q != p && (s.route k).egress.has q) frame).trunkTakes))
    ∧ ((∀ q, q ≠ r → passed q) →
      exec (.frameArrival t p frame) s =
        .next (if s.defaultAction = .drop then marked
          else (OfferedInEvent marked (fun q => q != p) frame).trunkTakes)))
  ∧ ∀ (s : State) (t : Time) (p : Port) (frame : CanFrame) (n : TargetId), Running s → s.mode = .routing →
    (s.port p).conf.carries = true → frame.id ∉ managementIds s.strap →
    (s.target n).state = .valid → (s.target n).parityBad = true →
    (∀ m, m ≠ n → (s.target m).state = .valid → (s.target m).parityBad = false) →
    (Unbound s n → exec (.frameArrival t p frame) s = .next ((Received s t p).raiseFault .target))
    ∧ ∀ f, BoundTo s f n →
      exec (.frameArrival t p frame) s = .next (((Received s t p).raiseFault .target).failFlow f .tableFault))
  ∧ ∀ (s : State) (t : Time) (p : Port) (frame : CanFrame) (n : TargetId), RoutingArrival s p frame →
    (RequestOf s frame n ∧ p ≠ .trunk ∨ ResponseOf s frame n ∧ p ≠ (s.target n).segment.port) →
    exec (.frameArrival t p frame) s = .next (Received s t p)

/-- What a tracker does with a dialogue request frame: the first frames of update requests are refused, other dialogue is
forwarded with room, carriers follow the tracker's state, PACE is offered. Byte 0 names the kind of a frame (R2), and a
frame of data length 0 is a CARRIER; when a WHOLE or OPENER is malformed, and where its request code and its length stand
(R2, R6). A refusal joins TRUNK at the event's end (R162, log 28). -/
def Obligations.TrackerTakesRequests : Prop :=
  (∀ (s : State) (t : Time) (frame : CanFrame) (n : TargetId), RoutingArrival s .trunk frame → RequestOf s frame n →
    (s.window.state = .closed ∨ Unbound s n) →
    let u := Received s t .trunk
    let segment := (s.target n).segment.port
    let update := (UpdateCode.ofByte (requestCode frame)).isSome
    let first := frameKind frame = .whole ∨ frameKind frame = .opener
    let after (k : Tracker) : Tracker := if frameKind frame = .opener then k else .none
    (first → update = true → exec (.frameArrival t .trunk frame) s =
      .next ((u.refuse n (requestCode frame) (if s.window.state = .closed then .windowClosed else .unbound) 0).setTracker
        n (after .refused)).trunkTakes)
    ∧ (first → update = false → firstMalformed frame = false → u.room segment .dialogue = true →
      exec (.frameArrival t .trunk frame) s =
        .next ((Enqueued u segment .dialogue frame).setTracker n (after .passing)))
    ∧ (first → update = false → firstMalformed frame = true ∨ u.room segment .dialogue = false →
      exec (.frameArrival t .trunk frame) s = .next (u.setTracker n (after .refused)))
    ∧ (frameKind frame = .carrier → (s.target n).tracker ≠ .passing →
      exec (.frameArrival t .trunk frame) s = .next u)
    ∧ (frameKind frame = .carrier → (s.target n).tracker = .passing → frame.fd = false ∨ frame.data = [] →
      exec (.frameArrival t .trunk frame) s = .next (u.setTracker n .none))
    ∧ (frameKind frame = .carrier → (s.target n).tracker = .passing → frame.fd = true → frame.data ≠ [] →
      exec (.frameArrival t .trunk frame) s =
        .next (if u.room segment .dialogue then Enqueued u segment .dialogue frame else u.setTracker n .refused))
    ∧ (frameKind frame = .pace → exec (.frameArrival t .trunk frame) s = .next (u.offer segment .dialogue frame)))
  ∧ ∀ frame : CanFrame,
    let low := (byteAt frame.data 0).toNat % 64
    let size := frame.data.length
    let stated := (byteAt frame.data 1).toNat
    let declared := 256 * (byteAt frame.data 1).toNat + (byteAt frame.data 2).toNat
    (frame.data = [] → frameKind frame = .carrier)
    ∧ (∀ c rest, frame.data = c :: rest →
      frameKind frame = match c.getLsbD 7, c.getLsbD 6 with
        | false, false => .whole
        | false, true => .opener
        | true, false => .carrier
        | true, true => .pace)
    ∧ (rollIndex frame).toNat = low
    ∧ (frameKind frame = .whole →
      (firstMalformed frame = true ↔ frame.fd = false ∨ low ≠ 0 ∨ stated = 0 ∨ 62 < stated ∨ size < stated + 2)
      ∧ requestCode frame = byteAt frame.data 2 ∧ parcelLength frame = stated)
    ∧ (frameKind frame = .opener →
      (firstMalformed frame = true ↔
        frame.fd = false ∨ low ≠ 0 ∨ size ≠ 64 ∨ declared < 63 ∨ 8190 < declared)
      ∧ requestCode frame = byteAt frame.data 3
      ∧ (firstMalformed frame = false → parcelLength frame = declared ∧ openerLength frame = declared))

/-- An alert replaces the entry of its key in place, or joins the tail; a parity error sets its flag, and a flag that goes
from clear to set queues a FAULT alert with the five flags; a refusal parcel is a CAN FD WHOLE with bit-rate switching on
the target's response identifier and one of thirteen reasons (R11, R12), offered to TRUNK after what the event offered
before it: at the event's end it joins when there is room, and is dropped otherwise (R97; where a reply or an alert can
move at the same event, DueActionsTakenAtOnce says which is first). A response and a plain frame are offered so too
(log 28). A refusal that a rule sends before an alert of its event is queued comes before that alert (R59, R78, R134). -/
def Obligations.ReportsQueued : Prop :=
  ((∀ (a : Alert) (l : List Alert), (∀ x ∈ l, x.key ≠ a.key) → putAlert a l = l ++ [a])
  ∧ (∀ (a x : Alert) (before after : List Alert), x.key = a.key → (∀ y ∈ before, y.key ≠ a.key) →
    putAlert a (before ++ x :: after) = before ++ a :: after)
  ∧ (∀ (s : State) (k : FaultFlag), s.faults.get k = true → s.raiseFault k = s)
  ∧ (∀ (s : State) (k : FaultFlag), s.faults.get k = false → s.raiseFault k =
    { s with
      faults := s.faults.set k
      alerts := { s.alerts with entries := putAlert (.fault (s.faults.set k)) s.alerts.entries } })
  ∧ (∀ (f : FaultFlags) (k j : FaultFlag), (f.set k).get j = (f.get j || decide (j = k)))
  ∧ (∀ f : FaultFlags, f.line = true ↔ ∃ k, f.get k = true)
  ∧ ∀ a : Alert, a.key = match a with
    | .flow f _ => .flow f
    | .progress f _ => .flow f
    | .image i _ _ _ _ => .image i
    | .supply _ _ _ => .supply
    | .window _ _ => .window
    | .fault _ => .fault)
  ∧ ∀ (s : State) (n : TargetId) (code : Byte) (reason : Reason) (detail : Byte),
    let refusal : CanFrame := ⟨(s.target n).response, true, true, [0x00, 0x04, 0xF1, code, reason.code, detail]⟩
    let codes : List (Reason × Byte) :=
      [(.windowClosed, 0xC1), (.unbound, 0xC2), (.outOfWindow, 0xC3), (.guarded, 0xC4), (.supply, 0xC5), (.held, 0xC6),
        (.overlap, 0xC7), (.notVerified, 0xC8), (.order, 0xC9), (.ended, 0xCA), (.layout, 0xCB), (.checkFailed, 0xCC),
        (.broken, 0xCD)]
    (reason, reason.code) ∈ codes
    ∧ s.refuse n code reason detail = s.offerTrunk (.generated .refusal) refusal
    ∧ (∀ k frame, s.offerTrunk k frame = { s with offers := s.offers ++ [⟨k, frame, false⟩] })
    ∧ (s.alerts.entries = [] → s.offersComeFirst = { s with offers := s.offers.map fun x => { x with ahead := true } })
    ∧ (s.alerts.entries ≠ [] → s.offersComeFirst = s)
    ∧ (Running s → s.room .trunk (.generated .refusal) = true →
      (s.refuse n code reason detail).trunkTakes = Enqueued s .trunk (.generated .refusal) refusal)
    ∧ (Running s → s.room .trunk (.generated .refusal) = false → (s.refuse n code reason detail).trunkTakes = s)

/-! ## Cells and the entry to FAILED (C3, C5) -/

/-- The pool gives the lowest-numbered free cell to a flow below its quota, and none otherwise; a flow's cells go back
whole, their contents kept. -/
def Obligations.PoolGivesAndTakes : Prop :=
  (∀ (s : State) (f : FlowId) (c : CellId), s.cellFor f = some c ↔ CellGiven s f c)
  ∧ (∀ (s : State) (f : FlowId), s.cellFor f = none ↔
    (s.flow f).params.cellQuota ≤ (s.flow f).heldCells.length ∨ ∀ c, (s.cell c).inUse = true)
  ∧ ∀ (s : State) (f : FlowId), ∃ cells,
    s.freeFlowCells f =
      { s with flows := s.flows.set f { s.flow f with fifo := [], held := none }, cells := cells }
    ∧ ∀ c, cells.get c = if c ∈ (s.flow f).heldCells then { s.cell c with inUse := false } else s.cell c

/-- A flow at work enters FAILED with a condition: its cells go back, its slice is abandoned, its gate request is
withdrawn, its pending request, record, open region and holds are gone, and a FLOW alert is queued. A flow not at work
stays. A consecutive failure is counted, and the one that reaches the retry limit fails the flow, after its refusal (R59;
`offersComeFirst` is written out in ReportsQueued). -/
def Obligations.EntryToFailed : Prop :=
  (∀ (s : State) (f : FlowId) (k : Condition), (s.flow f).state.atWork = false → s.failFlow f k = s)
  ∧ (∀ (s : State) (f : FlowId) (k : Condition) (b : Binding), (s.flow f).state.atWork = true →
    (s.flow f).binding = some b →
    let c := s.flow f
    let unknown := c.activationUnknown || (c.state == .activating && (k == .windowLapsed || k == .windowClosed))
    ∃ cells,
      s.failFlow f k =
        { s with
          flows := s.flows.set f
            { c with
              state := .failed, condition := some k, record := none, held := none, fifo := [], pendingReq := none,
              holds := ⟨false, false⟩, openRegion := none, activationUnknown := unknown }
          cells := cells
          engine := s.engine.map fun x =>
            match x.work with
            | .flow g _ _ => if g = f then { x with abandoned := true } else x
            | .image _ _ _ _ => x
          supply :=
            { s.supply with
              waiting := s.supply.waiting.filter (· != f)
              converter :=
                match s.supply.converter with
                | .idle => .idle
                | .converting done served => .converting done (served.filter (· != f)) }
          alerts :=
            { s.alerts with
              entries := putAlert
                (.flow f
                  { target := b.target, image := b.image, state := .failed, condition := some k,
                    activationUnknown := unknown, holds := c.holds, lastVerdict := c.lastVerdict,
                    lastRefusal := c.lastRefusal, failures := c.failures, late := c.late })
                s.alerts.entries } }
      ∧ ∀ x, cells.get x = if x ∈ c.heldCells then { s.cell x with inUse := false } else s.cell x)
  ∧ ∀ (s : State) (f : FlowId),
    let counted := s.setFlow f { s.flow f with failures := (s.flow f).failures + 1 }
    s.countFailure f =
      if (s.flow f).failures + 1 = (s.flow f).params.retryLimit then counted.offersComeFirst.failFlow f .retryLimit
      else counted

/-! ## Admission (C4) -/

/-- A new first frame ends the parcel the record holds: INSPECTED silently BROKEN, GATED with its cell and its gate
request, PASSING and REFUSED as they are (R73). A WHOLE target refusal makes the tracker NONE, ends an INSPECTED parcel
before its final frame silently BROKEN and a PASSING one, both leaving REFUSED, and no other record (R7). The slice of an
ending parcel is abandoned (R113), and its gate request leaves both sets of the supply monitor (R136). -/
def Obligations.ParcelsEndSilently : Prop :=
  (∀ (s : State) (f : FlowId),
    s.abandonFlowSlice f =
      { s with
        engine := s.engine.map fun x =>
          match x.work with
          | .flow g _ _ => if g = f then { x with abandoned := true } else x
          | .image _ _ _ _ => x }
    ∧ s.withdrawGate f =
      { s with
        supply :=
          { s.supply with
            waiting := s.supply.waiting.filter (· != f)
            converter :=
              match s.supply.converter with
              | .idle => .idle
              | .converting done served => .converting done (served.filter (· != f)) } })
  ∧ (∀ (s : State) (f : FlowId),
    (∀ p, (s.flow f).record = some (.inspected p) → s.replaceRecord f =
      ((((s.freeFlowCells f).abandonFlowSlice f).setVerdict f .broken).setRecord f none))
    ∧ (∀ g, (s.flow f).record = some (.gated g) → s.replaceRecord f =
      (((s.freeFlowCells f).withdrawGate f).setRecord f none))
    ∧ (∀ d n, (s.flow f).record = some (.passing d n) → s.replaceRecord f = s.setRecord f none)
    ∧ ((s.flow f).record = some .refused → s.replaceRecord f = s.setRecord f none)
    ∧ ((s.flow f).record = none → s.replaceRecord f = s))
  ∧ ∀ (s : State) (n : TargetId),
    (Unbound s n → s.targetRefusal n = s.setTracker n .none)
    ∧ ∀ f, BoundTo s f n →
      let u := s.setTracker n .none
      (∀ p, (s.flow f).record = some (.inspected p) → (s.flow f).held = none →
        s.targetRefusal n =
          ((((u.freeFlowCells f).abandonFlowSlice f).setVerdict f .broken).setRecord f (some .refused)))
      ∧ (∀ d m, (s.flow f).record = some (.passing d m) → s.targetRefusal n = u.setRecord f (some .refused))
      ∧ ((s.flow f).record = none ∨ (s.flow f).record = some .refused ∨ (∃ g, (s.flow f).record = some (.gated g))
          ∨ (∃ p, (s.flow f).record = some (.inspected p) ∧ (s.flow f).held.isSome = true) →
        s.targetRefusal n = u)

/-- The admission checks refuse in their order: ENDED, SUPPLY, HELD, OVERLAP, ORDER, then a malformed first frame BROKEN
(a BLOCK with its verdict and one failure) and an ill-formed request LAYOUT; each refusal joins TRUNK at the event's end
(R162, log 28). The codes of the update requests, and when a
request is ill-formed (R8); when a first frame is malformed is a clause of TrackerTakesRequests. -/
def Obligations.AdmissionRefusesInOrder : Prop :=
  (∀ (s : State) (t : Time) (frame : CanFrame) (f : FlowId) (n : TargetId) (c : UpdateCode),
    AdmissionArrival s frame f n → UpdateCode.ofByte (requestCode frame) = some c →
    let u := (Received s t .trunk).replaceRecord f
    let k := s.flow f
    let working := k.state ≠ .done ∧ k.state ≠ .failed
    let unheld := k.holds = ⟨false, false⟩
    (k.state = .done ∨ k.state = .failed →
      exec (.frameArrival t .trunk frame) s = .next (RefusedFirst u f n frame .ended 0).trunkTakes)
    ∧ (working → k.holds.supply = true →
      exec (.frameArrival t .trunk frame) s = .next (RefusedFirst u f n frame .supply 0).trunkTakes)
    ∧ (working → k.holds = ⟨true, false⟩ →
      exec (.frameArrival t .trunk frame) s = .next (RefusedFirst u f n frame .held 0).trunkTakes)
    ∧ (working → unheld → k.pendingReq.isSome = true →
      exec (.frameArrival t .trunk frame) s = .next (RefusedFirst u f n frame .overlap 0).trunkTakes)
    ∧ (working → unheld → k.pendingReq = none → ¬ TakenIn k.state c →
      exec (.frameArrival t .trunk frame) s = .next (RefusedFirst u f n frame .order 0).trunkTakes)
    ∧ (unheld → k.pendingReq = none → TakenIn k.state c → firstMalformed frame = true → c ≠ .block →
      exec (.frameArrival t .trunk frame) s = .next (RefusedFirst u f n frame .broken 5).trunkTakes)
    ∧ (unheld → k.pendingReq = none → TakenIn k.state c → firstMalformed frame = true → c = .block →
      exec (.frameArrival t .trunk frame) s =
        .next (((RefusedFirst u f n frame .broken 5).setVerdict f .broken).countFailure f).trunkTakes)
    ∧ (unheld → k.pendingReq = none → TakenIn k.state c → firstMalformed frame = false → illFormed c frame = true →
      exec (.frameArrival t .trunk frame) s = .next (RefusedFirst u f n frame .layout 0).trunkTakes))
  ∧ (let codes : List (Byte × UpdateCode) :=
      [(0x61, .erase), (0x62, .open_), (0x63, .block), (0x64, .close), (0x65, .activate), (0x66, .abandon)]
    (∀ b c, UpdateCode.ofByte b = some c ↔ (b, c) ∈ codes) ∧ ∀ c : UpdateCode, (c.code, c) ∈ codes)
  ∧ ∀ (c : UpdateCode) (frame : CanFrame),
    let length : Nat := match c with
      | .erase => 9
      | .open_ => 11
      | .block => 3
      | .close => 1
      | .activate => 1
      | .abandon => 1
    illFormed c frame = true ↔
      (c = .block ∧ parcelLength frame < length)
        ∨ (c ≠ .block ∧ (frameKind frame = .opener ∨ parcelLength frame ≠ length))

/-- An admitted OPEN, CLOSE or ABANDON with room joins the segment queue, and its pending request begins; without room it
is refused BROKEN, detail 5, and nothing is pending. Where an OPEN's range stands in its frame, and which state a region
has, are clauses of RangeChecksRefuse; which state a flow takes with its pending request, of GateAnswersAct. -/
def Obligations.OpenCloseAbandonForwarded : Prop :=
  ∀ (s : State) (t : Time) (frame : CanFrame) (f : FlowId) (n : TargetId) (c : UpdateCode),
    AdmissionArrival s frame f n → Admissible s f frame c →
    let u := (Received s t .trunk).replaceRecord f
    let segment := (s.target n).segment.port
    let forwarded (k : PendingKind) : State :=
      if u.room segment .dialogue then
        (Enqueued u segment .dialogue frame).setFlow f
          { u.flow f with
            record := none
            pendingReq := some ⟨k, max s.now t + ms (s.flow f).params.responseTime⟩
            state := k.state
            openRegion := if c = .abandon then none else (s.flow f).openRegion }
      else RefusedFirst u f n frame .broken 5
    (∀ o, c = .close → (s.flow f).openRegion = some o →
      exec (.frameArrival t .trunk frame) s = .next (forwarded (.close o.region)).trunkTakes)
    ∧ (∀ o, c = .abandon → (s.flow f).openRegion = some o →
      exec (.frameArrival t .trunk frame) s = .next (forwarded (.abandon o.region)).trunkTakes)
    ∧ ∀ r x, c = .open_ → InRegion s f n frame r x → rangeAddress frame = x.base → rangeLength frame = x.length →
      openBlockLength frame = x.blockLength → (x.erase = true → (s.flow f).regionState r = .erased) →
      exec (.frameArrival t .trunk frame) s =
        .next (forwarded (.open_ ⟨r, x.length, x.blockLength, (x.length + x.blockLength - 1) / x.blockLength⟩)).trunkTakes

/-- The address and region checks of ERASE and OPEN refuse: length 0 LAYOUT, a guard window GUARDED and the flow fails,
no region window OUT_OF_WINDOW and the flow fails, another range than the region's LAYOUT; OPEN of a region to be erased
first ORDER, ERASE at supply state LOW SUPPLY. A damaged field of the image record, or a damaged slot below the region
count, is a table fault: IMAGE, refusal ENDED, and the flow fails (R81); that these slots are the ones read, and that one
of them that reads absent is found damaged, is the model's reading (log 23). A fatal refusal comes before the FLOW alert
(R78). Which takes a slot of TRUNK first, the refusal
of a table fault or its alert, is free where the order decides (R162, log 28). Where the address, the length and
the block length stand in the frame (R8), what a guard window and a region window hold, and the state of a region (R44). -/
def Obligations.RangeChecksRefuse : Prop :=
  (∀ (s : State) (t : Time) (frame : CanFrame) (f : FlowId) (n : TargetId) (c : UpdateCode),
    AdmissionArrival s frame f n → Admissible s f frame c → c = .erase ∨ c = .open_ →
    let u := (Received s t .trunk).replaceRecord f
    let address := rangeAddress frame
    let length := rangeLength frame
    let image := s.imageOf f
    let damaged :=
      image.bad ≠ [] ∨ ∃ k : SlotId, k.val < image.regionCount.getD 0 ∧ (image.slots.get k).parityBad = true
    (length = 0 → exec (.frameArrival t .trunk frame) s = .next (RefusedFirst u f n frame .layout 0).trunkTakes)
    ∧ (length ≠ 0 → (s.target n).guards address length = true →
      exec (.frameArrival t .trunk frame) s =
        .next ((RefusedFirst u f n frame .guarded 0).offersComeFirst.failFlow f .guarded).trunkTakes)
    ∧ (length ≠ 0 → (s.target n).guards address length = false → damaged →
      exec (.frameArrival t .trunk frame) s =
        .next (((u.raiseFault .image).refuse n c.code .ended 0).failFlow f .tableFault).trunkTakes)
    ∧ (length ≠ 0 → (s.target n).guards address length = false → ¬ damaged →
      (∀ q ∈ image.regions, q.2.contains address length = false) →
      exec (.frameArrival t .trunk frame) s =
        .next ((RefusedFirst u f n frame .outOfWindow 0).offersComeFirst.failFlow f .outOfWindow).trunkTakes)
    ∧ ∀ r x, InRegion s f n frame r x →
      (address ≠ x.base ∨ (c = .erase ∧ length < x.length)
          ∨ (c = .open_ ∧ (length ≠ x.length ∨ openBlockLength frame ≠ x.blockLength)) →
        exec (.frameArrival t .trunk frame) s = .next (RefusedFirst u f n frame .layout 0).trunkTakes)
      ∧ (c = .open_ → address = x.base → length = x.length → openBlockLength frame = x.blockLength →
        x.erase = true → (s.flow f).regionState r ≠ .erased →
        exec (.frameArrival t .trunk frame) s = .next (RefusedFirst u f n frame .order 0).trunkTakes)
      ∧ (c = .erase → address = x.base → x.length ≤ length → s.supply.state = .low →
        exec (.frameArrival t .trunk frame) s = .next (RefusedFirst u f n frame .supply 0).trunkTakes))
  ∧ (∀ (e : TargetEntry) (image : ImageRecord) (address length : Nat),
    (e.guards address length = true ↔
      ∃ w, (e.guard0 = some w ∨ e.guard1 = some w) ∧ w.base < address + length
        ∧ address < w.base + 4096 * 2 ^ w.sizeCode)
    ∧ (∀ k x, (k, x) ∈ image.regions ↔
      ∃ j : SlotId, j.val = k ∧ k < image.regionCount.getD 0 ∧ (image.slots.get j).region = some x)
    ∧ ∀ x : Region, x.contains address length = true ↔
      x.base ≤ address ∧ address + length ≤ x.base + 4096 * 2 ^ x.sizeCode)
  ∧ (∀ frame : CanFrame,
    let at_ (k : Nat) : Nat := (byteAt frame.data k).toNat
    (11 ≤ frame.data.length →
      rangeAddress frame = 2 ^ 24 * at_ 3 + 2 ^ 16 * at_ 4 + 2 ^ 8 * at_ 5 + at_ 6
      ∧ rangeLength frame = 2 ^ 24 * at_ 7 + 2 ^ 16 * at_ 8 + 2 ^ 8 * at_ 9 + at_ 10)
    ∧ (13 ≤ frame.data.length → openBlockLength frame = 2 ^ 8 * at_ 11 + at_ 12))
  ∧ ∀ (c : FlowCtx) (b : Binding) (r : Nat) (k : RegionState), c.binding = some b → b.regions[r]? = some k →
    c.regionState r = k

/-- An admitted ERASE or ACTIVATE becomes GATED: its frame is copied into a cell and held, and a gate request is made,
which starts a conversion at once or waits for the next one. Without a cell it is refused BROKEN, detail 5. ACTIVATE is
refused SUPPLY at supply state LOW, and NOT_VERIFIED while a region is not VERIFIED (R80). A gate request joins a set of
flows (R136). Where an ERASE's range stands in its frame is a clause of RangeChecksRefuse. -/
def Obligations.EraseAndActivateGated : Prop :=
  (∀ (s : State) (t : Time) (frame : CanFrame) (f : FlowId) (n : TargetId) (c : UpdateCode),
    AdmissionArrival s frame f n → Admissible s f frame c →
    let u := (Received s t .trunk).replaceRecord f
    let gated (g : Gated) : State → Prop := fun s' =>
      (∀ x, CellGiven u f x → s' =
        { u with
          cells := u.cells.set x ⟨true, ⟨frame.data, none, some ⟨frame.data.length, frame.brs⟩⟩, false⟩
          flows := u.flows.set f { u.flow f with held := some x, record := some (.gated g) }
          supply :=
            match u.supply.converter with
            | .idle =>
              { u.supply with
                converter := .converting (max s.now t + 200) (insertFlow f u.supply.waiting), waiting := [] }
            | .converting _ _ => { u.supply with waiting := insertFlow f u.supply.waiting } })
      ∧ ((∀ x, ¬ CellGiven u f x) → s' = (RefusedFirst u f n frame .broken 5).trunkTakes)
    (∀ r x, c = .erase → InRegion s f n frame r x → rangeAddress frame = x.base → x.length ≤ rangeLength frame →
      s.supply.state ≠ .low → ∃ s', exec (.frameArrival t .trunk frame) s = .next s' ∧ gated (.erase r) s')
    ∧ (c = .activate → s.supply.state ≠ .low → (s.flow f).allVerified = true →
      ∃ s', exec (.frameArrival t .trunk frame) s = .next s' ∧ gated .activate s')
    ∧ (c = .activate → s.supply.state = .low →
      exec (.frameArrival t .trunk frame) s = .next (RefusedFirst u f n frame .supply 0).trunkTakes)
    ∧ (c = .activate → s.supply.state ≠ .low → (s.flow f).allVerified = false →
      exec (.frameArrival t .trunk frame) s = .next (RefusedFirst u f n frame .notVerified 0).trunkTakes))
  ∧ (∀ (c : FlowCtx) (b : Binding), c.binding = some b → (c.allVerified = true ↔ ∀ k ∈ b.regions, k = .verified))
  ∧ ∀ (f : FlowId) (l : List FlowId), l.Pairwise (· < ·) →
    (insertFlow f l).Pairwise (· < ·) ∧ ∀ g, g ∈ insertFlow f l ↔ g = f ∨ g ∈ l

/-- The BLOCK checks against the open region, in order: SEQUENCE, OVERRUN, UNDERRUN. -/
def Obligations.BlockChecksInOrder : Prop :=
  ∀ (c : FlowCtx) (o : OpenRegion) (seq : Byte) (dataLength : Nat),
    let expected (k : Nat) := if k + 1 < o.checkCount then o.blockLength else o.length - k * o.blockLength
    let judged (k : Nat) (isRepeat : Bool) : BlockFinding :=
      if expected k < dataLength then .early .overrun
      else if dataLength < expected k then .early .underrun else .admitted k isRepeat
    (seq ≠ c.expectedSeq → c.lastAccepted ≠ some seq → c.blockFinding o seq dataLength = .early .sequence)
    ∧ (seq = c.expectedSeq → o.checkCount ≤ c.acceptedBlocks → c.blockFinding o seq dataLength = .early .overrun)
    ∧ (seq = c.expectedSeq → c.acceptedBlocks < o.checkCount →
      c.blockFinding o seq dataLength = judged c.acceptedBlocks false)
    ∧ (seq ≠ c.expectedSeq → c.lastAccepted = some seq →
      c.blockFinding o seq dataLength = judged (c.acceptedBlocks - 1) true)

/-- A BLOCK at admission: an early verdict is refused CHECK_FAILED with the verdict's code and counts one failure; a
single-frame BLOCK that passes is INSPECTED and held whole in a cell of the FIFO, with its accumulator preset, and waits
for the check engine; the OPENER of a longer one is copied and forwarded, and its gap deadline runs. Without a cell, and an
OPENER without room, the parcel ends BROKEN (R86, R89), with the record REFUSED after an OPENER and absent after a WHOLE,
whose only frame is its final one (log 12). A refusal joins TRUNK at the event's end (R162, log 28). -/
def Obligations.BlockTakenAtItsFirstFrame : Prop :=
  ∀ (s : State) (t : Time) (frame : CanFrame) (f : FlowId) (n : TargetId) (o : OpenRegion),
    AdmissionArrival s frame f n → Admissible s f frame .block → (s.flow f).openRegion = some o →
    let u := (Received s t .trunk).replaceRecord f
    let segment := (s.target n).segment.port
    let dataLength := parcelLength frame - 2
    let seq := byteAt frame.data (payloadStart frame + 1)
    (∀ v, (s.flow f).blockFinding o seq dataLength = .early v →
      exec (.frameArrival t .trunk frame) s =
        .next (((RefusedFirst u f n frame .checkFailed (BitVec.ofNat 8 v.code)).setVerdict f v).countFailure f).trunkTakes)
    ∧ (∀ k isRepeat x, (s.flow f).blockFinding o seq dataLength = .admitted k isRepeat → CellGiven u f x →
      frameKind frame = .whole →
      exec (.frameArrival t .trunk frame) s =
        .next
          (((u.setCell x
                ⟨true, ⟨frame.data, some ⟨4, dataLength⟩, some ⟨frame.data.length, frame.brs⟩⟩, false⟩).setFlow f
              { u.flow f with
                acc := 0xFFFFFFFF, fifo := (u.flow f).fifo ++ [x], held := some x,
                record := some (.inspected
                  ⟨parcelLength frame, parcelLength frame, none, none, seq, dataLength, isRepeat, k⟩) }).wakeEngine
            (.flow f)))
    ∧ (∀ k isRepeat, (s.flow f).blockFinding o seq dataLength = .admitted k isRepeat → (∀ x, ¬ CellGiven u f x) →
      exec (.frameArrival t .trunk frame) s =
        .next ((u.setFlow f { u.flow f with acc := 0xFFFFFFFF }).endBroken f n (frameKind frame = .whole)).trunkTakes)
    ∧ ∀ k isRepeat x, (s.flow f).blockFinding o seq dataLength = .admitted k isRepeat → CellGiven u f x →
      frameKind frame = .opener →
      let copied :=
        ((u.setCell x ⟨true, ⟨(frame.data.drop 5).take 59, some ⟨0, 59⟩, none⟩, false⟩).setFlow f
          { u.flow f with
            acc := 0xFFFFFFFF, fifo := (u.flow f).fifo ++ [x],
            record := some (.inspected
              ⟨parcelLength frame, 61, some 1, none, seq, dataLength, isRepeat, k⟩) }).wakeEngine (.flow f)
      (u.room segment .dialogue = true →
        exec (.frameArrival t .trunk frame) s =
          .next ((Enqueued copied segment .dialogue frame).setRecord f
            (some (.inspected
              ⟨parcelLength frame, 61, some 1, some (max s.now t + ms (s.flow f).params.gapLimit), seq, dataLength,
                isRepeat, k⟩))))
      ∧ (u.room segment .dialogue = false →
        exec (.frameArrival t .trunk frame) s = .next (copied.endBroken f n false).trunkTakes)

/-- Frames at a flow's record that start no update request: PACE is offered to the segment; the first frame of other
dialogue replaces the parcel and is forwarded with room; a carrier of a PASSING parcel is counted and forwarded with room,
and ends it REFUSED otherwise; a carrier at another record is dropped (R73 to R75). The kind of a frame, and when a first
frame is malformed, are clauses of TrackerTakesRequests (R2, R6). -/
def Obligations.OtherFramesAtTheRecord : Prop :=
  ∀ (s : State) (t : Time) (frame : CanFrame) (f : FlowId) (n : TargetId), RecordArrival s frame f n →
    let u := Received s t .trunk
    let w := u.replaceRecord f
    let segment := (s.target n).segment.port
    let record := (s.flow f).record
    let first := frameKind frame = .whole ∨ frameKind frame = .opener
    let after (r : ParcelRecord) : Option ParcelRecord := if frameKind frame = .opener then some r else none
    (frameKind frame = .pace → exec (.frameArrival t .trunk frame) s = .next (u.offer segment .dialogue frame))
    ∧ (first → UpdateCode.ofByte (requestCode frame) = none → firstMalformed frame = false →
      w.room segment .dialogue = true →
      exec (.frameArrival t .trunk frame) s =
        .next ((Enqueued w segment .dialogue frame).setRecord f (after (.passing (openerLength frame) 61))))
    ∧ (first → UpdateCode.ofByte (requestCode frame) = none →
      firstMalformed frame = true ∨ w.room segment .dialogue = false →
      exec (.frameArrival t .trunk frame) s = .next (w.setRecord f (after .refused)))
    ∧ (∀ declared seen, frameKind frame = .carrier → record = some (.passing declared seen) → frame.fd = true →
      frame.data ≠ [] → u.room segment .dialogue = true →
      let seen' := seen + min (min 63 (declared - seen)) (frame.data.length - 1)
      exec (.frameArrival t .trunk frame) s =
        .next ((Enqueued u segment .dialogue frame).setRecord f
          (if declared ≤ seen' then none else some (.passing declared seen'))))
    ∧ (∀ declared seen, frameKind frame = .carrier → record = some (.passing declared seen) →
      frame.fd = false ∨ frame.data = [] ∨ u.room segment .dialogue = false →
      exec (.frameArrival t .trunk frame) s = .next (u.setRecord f (some .refused)))
    ∧ (frameKind frame = .carrier →
      record = none ∨ record = some .refused ∨ (∃ g, record = some (.gated g))
        ∨ ((∃ p, record = some (.inspected p)) ∧ (s.flow f).held.isSome = true) →
      exec (.frameArrival t .trunk frame) s = .next u)

/-- A carrier of an INSPECTED parcel before its final frame: a classical or empty frame, another roll index or too few
bytes end the parcel BROKEN; otherwise its bytes go into a cell of the FIFO. A frame that is not the last is forwarded with
room and sets the gap deadline; the last one is held. Without a cell, or without room, the parcel ends BROKEN (R86,
R87); the record is then REFUSED, and absent when the carrier without a cell is the parcel's last (log 12). A refusal joins TRUNK at
the event's end (R162, log 28). -/
def Obligations.CarriersOfAnInspectedParcel : Prop :=
  ∀ (s : State) (t : Time) (frame : CanFrame) (f : FlowId) (n : TargetId) (p : Inspected), RecordArrival s frame f n →
    frameKind frame = .carrier → (s.flow f).record = some (.inspected p) → (s.flow f).held = none →
    let u := Received s t .trunk
    let c := s.flow f
    let segment := (s.target n).segment.port
    let share := min 63 (p.declared - p.seen)
    let sound := frame.fd = true ∧ frame.data ≠ [] ∧ p.nextRoll = some (rollIndex frame) ∧ share < frame.data.length
    let taken : Inspected := { p with seen := p.seen + share, nextRoll := some (rollIndex frame + 1) }
    let inCell (x : CellId) : State :=
      ((u.setCell x ⟨true, ⟨(frame.data.drop 1).take share, some ⟨0, share⟩, none⟩, false⟩).setFlow f
        { c with fifo := c.fifo ++ [x], record := some (.inspected taken) }).wakeEngine (.flow f)
    (¬ sound → exec (.frameArrival t .trunk frame) s = .next (u.endBroken f n false).trunkTakes)
    ∧ (sound → (∀ x, ¬ CellGiven u f x) →
      exec (.frameArrival t .trunk frame) s = .next (u.endBroken f n (p.declared ≤ p.seen + share)).trunkTakes)
    ∧ (∀ x, sound → CellGiven u f x → p.seen + share < p.declared → u.room segment .dialogue = true →
      exec (.frameArrival t .trunk frame) s =
        .next ((Enqueued (inCell x) segment .dialogue frame).setRecord f
          (some (.inspected { taken with gapDeadline := some (max s.now t + ms c.params.gapLimit) }))))
    ∧ (∀ x, sound → CellGiven u f x → p.seen + share < p.declared → u.room segment .dialogue = false →
      exec (.frameArrival t .trunk frame) s = .next ((inCell x).endBroken f n false).trunkTakes)
    ∧ ∀ x, sound → CellGiven u f x → p.declared ≤ p.seen + share →
      exec (.frameArrival t .trunk frame) s =
        .next
          (((u.setCell x ⟨true, ⟨frame.data, some ⟨1, share⟩, some ⟨frame.data.length, frame.brs⟩⟩, false⟩).setFlow f
            { c with
              fifo := c.fifo ++ [x], held := some x,
              record := some (.inspected { taken with nextRoll := none, gapDeadline := none }) }).wakeEngine (.flow f))

/-! ## Responses and outcomes (C3) -/

/-- What a target response does at its target's flow: a WHOLE target refusal first ends the parcel in transit, a matching
response acts, another one that names an update request becomes the late response, and the frame is offered to TRUNK; which
of it and an alert that the event queues takes a slot first is free where the order decides (R162; that it holds for a
response too is the model's reading, log 28). The codes by which a response names the pending request (R47, R48). How a
response frame is classed (R10; log 11), which frame is a WHOLE refusal (R7), and which response becomes the late response
(R57). -/
def Obligations.ResponsesAct : Prop :=
  (∀ (s : State) (t : Time) (frame : CanFrame) (n : TargetId), ResponseOf s frame n →
    RoutingArrival s (s.target n).segment.port frame →
    let p := (s.target n).segment.port
    let v := if isWholeRefusal frame then (Received s t p).targetRefusal n else Received s t p
    (Unbound s n → exec (.frameArrival t p frame) s = .next (v.offerTrunk .dialogue frame).trunkTakes)
    ∧ ∀ f, BoundTo s f n →
      (responseOf frame = none → exec (.frameArrival t p frame) s = .next (v.offerTrunk .dialogue frame).trunkTakes)
      ∧ (∀ q code echo, (s.flow f).pendingReq = some q → responseOf frame = some (.positive code echo) →
        Answers q.kind (.positive code echo) →
        exec (.frameArrival t p frame) s =
          .next
            (((v.setFlow f { v.flow f with pendingReq := none }).onPositive f q.kind).offerTrunk .dialogue
              frame).trunkTakes)
      ∧ (∀ q code reason, (s.flow f).pendingReq = some q → responseOf frame = some (.refusal code reason) →
        Answers q.kind (.refusal code reason) →
        exec (.frameArrival t p frame) s =
          .next
            (((v.setFlow f { v.flow f with lastRefusal := some reason, pendingReq := none }).onRefusal f
              q.kind).offerTrunk .dialogue frame).trunkTakes)
      ∧ (∀ q code, (s.flow f).pendingReq = some q → responseOf frame = some (.wait code) →
        Answers q.kind (.wait code) →
        exec (.frameArrival t p frame) s =
          .next
            ((v.setFlow f
                { v.flow f with
                  pendingReq := some ⟨q.kind, max s.now t + ms (s.flow f).params.waitExtension⟩ }).offerTrunk
              .dialogue frame).trunkTakes)
      ∧ ∀ r, responseOf frame = some r → (∀ q, (s.flow f).pendingReq = some q → ¬ Answers q.kind r) →
        exec (.frameArrival t p frame) s =
          .next
            ((match lateOf r with
              | some l => v.setFlow f { v.flow f with late := some l }
              | none => v).offerTrunk .dialogue frame).trunkTakes)
  ∧ (∀ frame : CanFrame,
    let read := frame.fd = true ∧ (frameKind frame = .whole ∨ frameKind frame = .opener)
    let payload :=
      (frame.data.drop (if frameKind frame = .opener then 3 else 2)).take (parcelLength frame)
    (isWholeRefusal frame = true ↔ frame.fd = true ∧ frameKind frame = .whole ∧ payload.head? = some 0xF1)
    ∧ (¬ read → responseOf frame = none)
    ∧ (∀ code reason rest, read → payload = 0xF1 :: code :: reason :: rest →
      responseOf frame = some (.refusal code reason))
    ∧ (∀ code rest, read → payload = 0xF2 :: code :: rest → responseOf frame = some (.wait code))
    ∧ (∀ code echo rest, read → 0x81 ≤ code.toNat → code.toNat ≤ 0x86 → payload = code :: echo :: rest →
      responseOf frame = some (.positive code echo))
    ∧ (∀ code, read → 0x81 ≤ code.toNat → code.toNat ≤ 0x86 → code ≠ 0x83 → payload = [code] →
      responseOf frame = some (.positive code 0))
    ∧ (read → payload = [] ∨ payload = [0x83] ∨ payload = [0xF1] ∨ (∃ code, payload = [0xF1, code]) ∨ payload = [0xF2]
        ∨ (∃ code rest, payload = code :: rest ∧ code ≠ 0xF1 ∧ code ≠ 0xF2
          ∧ (code.toNat < 0x81 ∨ 0x86 < code.toNat)) →
      responseOf frame = none))
  ∧ (∀ (r : Nat) (o : OpenRegion) (seq : Byte) (k : Nat) (again : Bool),
    [PendingKind.erase r, .open_ o, .block seq k again, .close r, .activate, .abandon r].map PendingKind.code =
      [0x61, 0x62, 0x63, 0x64, 0x65, 0x66])
  ∧ ∀ code reason : Byte,
    let update := 0x61 ≤ code.toNat ∧ code.toNat ≤ 0x66
    (∀ echo, lateOf (.positive code echo) = some ⟨code, none⟩)
    ∧ (update → lateOf (.refusal code reason) = some ⟨0xF1, some reason⟩ ∧ lateOf (.wait code) = some ⟨0xF2, none⟩)
    ∧ (¬ update → lateOf (.refusal code reason) = none ∧ lateOf (.wait code) = none)

/-- The outcomes of a positive response to each request, and of a target refusal of each (R51 to R56, R65). -/
def Obligations.ResponseOutcomes : Prop :=
  (∀ (s : State) (f : FlowId) (b : Binding), (s.flow f).binding = some b →
    let c := s.flow f
    let region (r : Nat) (k : RegionState) : Option Binding := some { b with regions := b.regions.set r k }
    (∀ r, s.onPositive f (.erase r) = s.setFlow f { c with binding := region r .erased, state := .idle })
    ∧ (∀ o, s.onPositive f (.open_ o) = s.setFlow f
        { c with
          binding := region o.region .opened, openRegion := some o, expectedSeq := 1, lastAccepted := none,
          acceptedBlocks := 0, acceptedBytes := 0, sinceProgress := 0, acc := 0xFFFFFFFF, state := .loading })
    ∧ (∀ seq n, s.onPositive f (.block seq n true) = s)
    ∧ (∀ seq n, b.params.progressInterval = 0 ∨ c.sinceProgress + 1 ≠ b.params.progressInterval →
      s.onPositive f (.block seq n false) = s.setFlow f
        { c with
          acceptedBlocks := c.acceptedBlocks + 1, acceptedBytes := c.acceptedBytes + n, lastAccepted := some seq,
          expectedSeq := seq + 1, failures := 0,
          sinceProgress := if b.params.progressInterval = 0 then c.sinceProgress else c.sinceProgress + 1 })
    ∧ (∀ seq n o, c.openRegion = some o → c.sinceProgress + 1 = b.params.progressInterval →
      s.onPositive f (.block seq n false) =
        { s with
          flows := s.flows.set f
            { c with
              acceptedBlocks := c.acceptedBlocks + 1, acceptedBytes := c.acceptedBytes + n, lastAccepted := some seq,
              expectedSeq := seq + 1, failures := 0, sinceProgress := 0 }
          alerts :=
            { s.alerts with
              entries := putAlert
                (.progress f
                  ⟨b.target, o.region, seq, c.acceptedBlocks + 1, c.acceptedBytes + n,
                    o.length - (c.acceptedBytes + n)⟩)
                s.alerts.entries } })
    ∧ (∀ r o, c.openRegion = some o → s.onPositive f (.close r) = s.setFlow f
        { c with
          binding := region r
            (if c.acceptedBlocks = o.checkCount ∧ c.acceptedBytes = o.length then .verified else .short)
          openRegion := none, state := .idle })
    ∧ (∀ r, s.onPositive f (.abandon r) = s.setFlow f { c with binding := region r .blank, state := .idle })
    ∧ s.onPositive f .activate =
        { s with
          flows := s.flows.set f { c with holds := ⟨false, false⟩, state := .done }
          alerts :=
            { s.alerts with
              entries := putAlert
                (.flow f
                  ⟨b.target, b.image, .done, c.condition, c.activationUnknown, c.holds, c.lastVerdict, c.lastRefusal,
                    c.failures, c.late⟩)
                s.alerts.entries } })
  ∧ ∀ (s : State) (f : FlowId) (b : Binding), (s.flow f).binding = some b →
    let c := s.flow f
    let region (r : Nat) (k : RegionState) : Option Binding := some { b with regions := b.regions.set r k }
    (∀ r, s.onRefusal f (.erase r) = s.setFlow f { c with binding := region r .blank, state := .idle })
    ∧ (∀ o, s.onRefusal f (.open_ o) = s.setFlow f { c with state := .idle })
    ∧ (∀ seq n b, s.onRefusal f (.block seq n b) = s.countFailure f)
    ∧ (∀ r, s.onRefusal f (.close r) = s.setFlow f
        { c with binding := region r .short, openRegion := none, state := .idle })
    ∧ (∀ r, s.onRefusal f (.abandon r) = s.setFlow f { c with binding := region r .short, state := .idle })
    ∧ s.onRefusal f .activate = s.setFlow f { c with state := .idle }

/-- PENDING_DEADLINE_EXPIRY at or after the deadline clears the pending request and applies its expiry outcome; a deadline
that does not stand or is not reached leaves all but the time as it was (log 4). -/
def Obligations.PendingDeadlineExpires : Prop :=
  ∀ (s : State) (t : Time) (f : FlowId) (b : Binding), Running s → (s.flow f).binding = some b →
    let u := s.advance t
    let c := { s.flow f with pendingReq := none }
    let region (r : Nat) (k : RegionState) : Option Binding := some { b with regions := b.regions.set r k }
    (∀ k d, (s.flow f).pendingReq = some ⟨k, d⟩ → d ≤ max s.now t →
      exec (.pendingDeadlineExpiry t f) s =
        .next (match k with
          | .erase r => u.setFlow f { c with binding := region r .blank, state := .idle }
          | .open_ _ => u.setFlow f { c with state := .idle }
          | .block _ _ _ => (u.setFlow f c).countFailure f
          | .close r => u.setFlow f { c with binding := region r .short, openRegion := none, state := .idle }
          | .abandon r => u.setFlow f { c with binding := region r .short, state := .idle }
          | .activate => (u.setFlow f c).failFlow f .noResponse))
    ∧ ((∀ q, (s.flow f).pendingReq = some q → max s.now t < q.deadline) →
      exec (.pendingDeadlineExpiry t f) s = .next u)

/-! ## The gap deadline and the window closure (C4, C6) -/

/-- GAP_DEADLINE_EXPIRY at or after the gap deadline of an INSPECTED parcel ends it BROKEN: its cells go back, its slice is
abandoned, one refusal BROKEN with detail 5 is sent, the verdict is BROKEN, the record REFUSED, or absent when the final
frame is held, and one failure is counted; the refusal joins TRUNK at the event's end (R162, log 28); otherwise only the
time changes (log 4). Every other end BROKEN has the same effects (R89). -/
def Obligations.GapDeadlineExpires : Prop :=
  (∀ (s : State) (f : FlowId) (n : TargetId) (finalTaken : Bool),
    s.endBroken f n finalTaken =
      (((((s.freeFlowCells f).abandonFlowSlice f).refuse n 0x63 .broken 5).setVerdict f .broken).setRecord f
        (if finalTaken then none else some .refused)).countFailure f)
  ∧ ∀ (s : State) (t : Time) (f : FlowId), Running s →
    (∀ n p d, (s.flow f).target = some n → (s.flow f).record = some (.inspected p) → p.gapDeadline = some d →
      d ≤ max s.now t →
      exec (.gapDeadlineExpiry t f) s =
        .next
          (((((((s.advance t).freeFlowCells f).abandonFlowSlice f).refuse n 0x63 .broken 5).setVerdict f .broken).setRecord
            f (if (s.flow f).held.isSome then none else some .refused)).countFailure f).trunkTakes)
    ∧ ((∀ p d, (s.flow f).record = some (.inspected p) → p.gapDeadline = some d → max s.now t < d) →
      exec (.gapDeadlineExpiry t f) s = .next (s.advance t))

/-- WINDOW_EXPIRY at or after the expiry time closes the open window with cause LAPSED; a closure fails the flows at work in
ascending number, each with its cells, its slice, its gate request and its FLOW alert, clears the records of the ended ones
and the trackers of the bound targets, resets the window record, queues a WINDOW alert with the number of flows failed
after the FLOW alerts (R120, R122, R124), and leaves the ports, images, routes and fault flags; otherwise only the time
changes (log 4). -/
def Obligations.WindowExpiresAndCloses : Prop :=
  (∀ (s : State) (t : Time) (e : Time), Running s → s.window.state = .opened → s.window.expiry = some e →
    e ≤ max s.now t → exec (.windowExpiry t) s = .next ((s.advance t).closeWindow .lapsed))
  ∧ (∀ (s : State) (t : Time), Running s →
    (s.window.state = .closed ∨ ∀ e, s.window.expiry = some e → max s.now t < e) →
    exec (.windowExpiry t) s = .next (s.advance t))
  ∧ ∀ (s : State) (cause : ClosureCause),
    let v := s.closeWindow cause
    let condition : Condition := if cause = .lapsed then .windowLapsed else .windowClosed
    let w := (List.finRange 16).foldl (fun u f => State.failFlow u f condition) s
    (v.alerts =
      { w.alerts with
        entries := putAlert (.window cause (allFlows.countP fun f => (s.flow f).state.atWork)) w.alerts.entries }
    ∧ v.cells = w.cells ∧ v.engine = w.engine ∧ v.supply = w.supply)
    ∧ (∀ f, (s.flow f).state.atWork = true →
      v.flow f =
        { s.flow f with
          state := .failed, condition := some condition,
          record := none, held := none, fifo := [], pendingReq := none, holds := ⟨false, false⟩, openRegion := none,
          activationUnknown := (s.flow f).activationUnknown || (s.flow f).state == .activating })
    ∧ (∀ f, (s.flow f).state = .done ∨ (s.flow f).state = .failed → v.flow f = { s.flow f with record := none })
    ∧ (∀ f, (s.flow f).state = .free → v.flow f = s.flow f)
    ∧ (∀ n, (v.target n).tracker =
        if ∃ f, (s.flow f).state ≠ .free ∧ (s.flow f).target = some n then .none else (s.target n).tracker)
    ∧ v.window = ⟨.closed, none, none, .none⟩
    ∧ Alert.window cause (allFlows.countP fun f => (s.flow f).state.atWork) ∈ v.alerts.entries
    ∧ (∀ f b, (s.flow f).state.atWork = true → (s.flow f).binding = some b →
      ∃ report, Alert.flow f report ∈ v.alerts.entries ∧ report.state = .failed ∧ report.condition = some condition)
    ∧ (∀ c, (v.cell c).inUse = ((s.cell c).inUse && !(allFlows.any fun f =>
        (s.flow f).state.atWork && (s.flow f).heldCells.contains c)))
    ∧ v.ports = s.ports ∧ v.images = s.images ∧ v.routes = s.routes ∧ v.faults = s.faults ∧ v.mode = s.mode
    ∧ v.checkList = s.checkList ∧ v.extents = s.extents ∧ v.mgmt = s.mgmt ∧ v.now = s.now

/-! ## The check engine (C5) -/

/-- The check value of a sequence of bytes (R103): a register preset to all ones, each byte fed least significant bit
first, the shift and the polynomial 0xEDB88320 when the fed bit differs from the lowest bit, inverted at the end. -/
def Obligations.CheckValueIsCrc32 : Prop :=
  (∀ bytes, checkValue bytes = ~~~ crcFold 0xFFFFFFFF bytes)
  ∧ (∀ acc, crcFold acc [] = acc)
  ∧ (∀ acc b bytes, crcFold acc (b :: bytes) = crcFold (crcByte acc b) bytes)
  ∧ (∀ (acc : Word) (b : Byte), crcByte acc b =
    crcBit (crcBit (crcBit (crcBit (crcBit (crcBit (crcBit (crcBit acc (b.getLsbD 0)) (b.getLsbD 1)) (b.getLsbD 2))
      (b.getLsbD 3)) (b.getLsbD 4)) (b.getLsbD 5)) (b.getLsbD 6)) (b.getLsbD 7))
  ∧ (∀ (reg : Word) (bit : Bool), (reg.getLsbD 0 ^^ bit) = true → crcBit reg bit = (reg >>> 1) ^^^ 0xEDB88320#32)
  ∧ (∀ (reg : Word) (bit : Bool), (reg.getLsbD 0 ^^ bit) = false → crcBit reg bit = reg >>> 1)
  ∧ (0xEDB88320#32).reverse = 0x04C11DB7#32
  ∧ checkValue [0x31, 0x32, 0x33, 0x34, 0x35, 0x36, 0x37, 0x38, 0x39] = 0xCBF43926
  ∧ checkValue [0x00] = 0xD202EF8D
  ∧ checkValue [] = 0x00000000

/-- The requester chosen at a slice's completion (R107): present, of the lowest level, among those of one level a flow
before an image, among flows or among images of one level the lowest number; none when no requester is present. A
requester that appears while a slice is in the engine waits, and one that finds it IDLE gets a slice at once: a flow with the
head cell of its FIFO as it reads then (R106). That the look for requesters checks no parity is the model's reading (log 26),
and that a CHECKING image whose damaged level reads absent ranks at level 0 its choice (log 30). -/
def Obligations.EngineChoosesByLevel : Prop :=
  ∀ s : State,
    let present : Requester → Prop := fun r => match r with
      | .flow f => (s.flow f).fifo ≠ []
      | .image i => (s.image i).state = .checking
    let level : Requester → Nat := fun r => match r with
      | .flow f => (s.flow f).params.level
      | .image i => (s.image i).level.getD 0
    (∀ r, s.nextRequester = some r →
      present r ∧ ∀ q, present q → level r ≤ level q
        ∧ (level q = level r →
          (∀ i, r = .image i → (∀ f, q ≠ .flow f) ∧ ∀ j, q = .image j → i ≤ j)
          ∧ ∀ f, r = .flow f → ∀ g, q = .flow g → f ≤ g))
    ∧ (s.nextRequester = none ↔ ∀ r, ¬ present r)
    ∧ (s.nextRequester = none → s.nextSlice = { s with engine := none })
    ∧ (∀ r, s.nextRequester = some r → s.nextSlice = s.beginSlice r)
    ∧ (∀ r x, s.engine = some x → s.wakeEngine r = s)
    ∧ (∀ r, s.engine = none → s.wakeEngine r = s.beginSlice r)
    ∧ ∀ f c rest, (s.flow f).fifo = c :: rest →
      s.beginSlice (.flow f) = { s with engine := some ⟨.flow f c (s.cell c), false⟩ }

/-- FLOW_SLICE_COMPLETE of a cell that is not the held frame folds its bytes, takes it from the FIFO and frees it; a cell
read with a parity error raises CELL and ends the parcel BROKEN; then the next slice begins. The result of an abandoned
slice is discarded; without a slice of its kind in the engine a completion changes only the time (log 4). The bytes a cell
gives to the fold are those of its span: from the span's first byte, as many as the span counts, and none without a span
(R9, R98, R104, R108). A refusal joins TRUNK at the event's end (R162, log 28). -/
def Obligations.FlowSliceFoldsOrIsDiscarded : Prop :=
  (∀ (s : State) (t : Time) (f : FlowId) (n : TargetId) (p : Inspected) (c : CellId) (x : Cell), Running s →
    s.engine = some ⟨.flow f c x, false⟩ → (s.flow f).target = some n → (s.flow f).record = some (.inspected p) →
    (x.parityBad = false → (s.flow f).held ≠ some c →
      exec (.flowSliceComplete t) s =
        .next
          (((((s.advance t).setFlow f
                { s.flow f with acc := crcFold (s.flow f).acc x.content.folded, fifo := (s.flow f).fifo.tail })).freeCell
            c).nextSlice))
    ∧ (x.parityBad = true →
      exec (.flowSliceComplete t) s =
        .next ((((s.advance t).raiseFault .cell).endBroken f n (s.flow f).held.isSome).nextSlice).trunkTakes))
  ∧ (∀ x : CellContent, (x.span = none → x.folded = [])
    ∧ ∀ d, x.span = some d → x.folded = (x.bytes.drop d.first).take d.count)
  ∧ ∀ (s : State) (t : Time), Running s →
    (∀ f c x, s.engine = some ⟨.flow f c x, true⟩ → exec (.flowSliceComplete t) s = .next ((s.advance t).nextSlice))
    ∧ (∀ i b n e, s.engine = some ⟨.image i b n e, true⟩ →
      exec (.imageSliceComplete t) s = .next ((s.advance t).nextSlice))
    ∧ (∀ f c x a, s.engine = some ⟨.flow f c x, a⟩ → exec (.imageSliceComplete t) s = .next (s.advance t))
    ∧ (∀ i b n e a, s.engine = some ⟨.image i b n e, a⟩ → exec (.flowSliceComplete t) s = .next (s.advance t))
    ∧ (s.engine = none →
      exec (.flowSliceComplete t) s = .next (s.advance t) ∧ exec (.imageSliceComplete t) s = .next (s.advance t))

/-- FLOW_SLICE_COMPLETE of the held frame compares: on a match the held frame joins the segment queue and the pending
BLOCK begins, without room the parcel ends BROKEN; on a mismatch it is discarded with CHECK_FAILED, detail 1, and one
failure. The check entry is the one at the extent's first index plus the check counts of the regions below the open one
plus the check index (R26, R109). A damaged image field or slot on the way to the check entry (log 23), a damaged check
entry, and at a match a damaged target entry are table faults: their flag, CHECK_FAILED with detail 6, verdict TABLE_FAULT,
and the flow fails (R81, R111); which takes a slot of TRUNK first, the refusal or the FAULT alert, is free where the order
decides (R162, log 28). The bytes a cell gives to the fold are written out in FlowSliceFoldsOrIsDiscarded. -/
def Obligations.VerdictOfTheLastSlice : Prop :=
  ∀ (s : State) (t : Time) (f : FlowId) (n : TargetId) (p : Inspected) (c : CellId) (x : Cell), Running s →
    s.engine = some ⟨.flow f c x, false⟩ → (s.flow f).target = some n → (s.flow f).record = some (.inspected p) →
    x.parityBad = false → (s.flow f).held = some c →
    let acc := crcFold (s.flow f).acc x.content.folded
    let v := (s.advance t).setFlow f { s.flow f with acc := acc, fifo := (s.flow f).fifo.tail }
    let r := s.imageOf f
    let region := (s.flow f).openRegion.elim 0 OpenRegion.region
    let checks : Slot → Nat := fun y => match y.region with
      | some g => (g.length + g.blockLength - 1) / g.blockLength
      | none => 0
    let entry :=
      s.checkList.read
        (r.extent.elim 0 Extent.first + ((r.slots.toList.take region).map checks).sum + p.checkIndex)
    let segment := (s.target n).segment.port
    let frame : CanFrame := ⟨(s.target n).request, true, x.content.frame.elim false HeldFrameInfo.brs, x.content.bytes⟩
    let w := v.freeFlowCells f
    let unlocated := ImageField.extent ∈ r.bad ∨ ∃ k : SlotId, k.val < region ∧ (r.slots.get k).parityBad = true
    let fault (k : FaultFlag) : State :=
      ((((v.raiseFault k).refuse n 0x63 .checkFailed 6).setVerdict f .tableFault).failFlow f .tableFault).nextSlice
    (unlocated → exec (.flowSliceComplete t) s = .next (fault .image).trunkTakes)
    ∧ (¬ unlocated → entry.parityBad = true → exec (.flowSliceComplete t) s = .next (fault .checklist).trunkTakes)
    ∧ (¬ unlocated → entry.parityBad = false → ~~~acc = entry.value → (s.target n).parityBad = true →
      exec (.flowSliceComplete t) s = .next (fault .target).trunkTakes)
    ∧ (¬ unlocated → entry.parityBad = false → ~~~acc = entry.value → (s.target n).parityBad = false →
      s.room segment .dialogue = true →
      exec (.flowSliceComplete t) s =
        .next
          ((((Enqueued w segment .dialogue frame).setFlow f
              { w.flow f with
                pendingReq := some
                  ⟨.block p.seq p.dataLength p.isRepeat, max s.now t + ms (s.flow f).params.responseTime⟩
                state := .loading, lastVerdict := some .matched, record := none })).nextSlice))
    ∧ (¬ unlocated → entry.parityBad = false → ~~~acc = entry.value → (s.target n).parityBad = false →
      s.room segment .dialogue = false →
      exec (.flowSliceComplete t) s = .next ((v.endBroken f n true).nextSlice).trunkTakes)
    ∧ (¬ unlocated → entry.parityBad = false → ~~~acc ≠ entry.value →
      exec (.flowSliceComplete t) s =
        .next
          (((((w.refuse n 0x63 .checkFailed 1).setVerdict f .mismatch).setRecord f none).countFailure
            f).nextSlice).trunkTakes)

/-- An image slice takes at its beginning up to 16 check entries from the self-check progress, the first slice the header of
the serialization before them, and the first parity error found (R32, R33, R106; which reads check parity: log 20, log 23).
IMAGE_SLICE_COMPLETE folds that part; the last one compares with the expected manifest check and makes the image READY or
DEFECTIVE, with an IMAGE alert; a parity error, at the beginning or in the extent or the expected check at the end, makes it
DEFECTIVE and raises its flag. The bytes of a slice are fixed at its beginning (log 14). -/
def Obligations.ImageSliceChecks : Prop :=
  (∀ (s : State) (i : ImageId) (x : Extent), (s.image i).extent = some x →
    let r := s.image i
    let progress := r.progress.getD 0
    let regions := r.regionCount.getD 0
    let n := min 16 (x.count - progress)
    let entry (k : Nat) : CheckEntry := s.checkList.read (x.first + progress + k)
    let region : Slot → List Byte := fun y => match y.region with
      | some g => be 4 g.base ++ b1 g.sizeCode ++ be 4 g.length ++ be 2 g.blockLength ++ b1 g.erase.toNat
      | none => []
    let header := be 4 r.tag.toNat ++ b1 regions ++ (r.slots.toList.take regions).flatMap region
    let headerDamaged := ImageField.tag ∈ r.bad ∨ ImageField.regionCount ∈ r.bad
      ∨ ∃ k : SlotId, k.val < regions ∧ (r.slots.get k).parityBad = true
    let recordDamaged := ImageField.extent ∈ r.bad ∨ (progress = 0 ∧ headerDamaged)
    let begun (error : Option FaultFlag) : State :=
      { s with
        engine := some
          ⟨.image i
              ((if progress = 0 then header else []) ++ (List.range n).flatMap fun k => be 4 (entry k).value.toNat)
              n error,
            false⟩ }
    (recordDamaged → s.beginSlice (.image i) = begun (some .image))
    ∧ (¬ recordDamaged → (∃ k < n, (entry k).parityBad = true) → s.beginSlice (.image i) = begun (some .checklist))
    ∧ (¬ recordDamaged → (∀ k < n, (entry k).parityBad = false) → s.beginSlice (.image i) = begun none))
  ∧ ∀ (s : State) (t : Time) (i : ImageId) (bytes : List Byte) (n : Nat) (e : Option FaultFlag), Running s →
    s.engine = some ⟨.image i bytes n e, false⟩ →
    let r := s.image i
    let acc := crcFold (r.acc.getD 0xFFFFFFFF) bytes
    let progress := r.progress.getD 0 + n
    let count := r.extent.elim 0 Extent.count
    let ended (u : State) (k : ImageState) (computed : Word) (byParity : Bool) : State :=
      (u.setImage i
          { r with
            state := k, progress := none, acc := none,
            bad := r.bad.filter (· ≠ .state) }).queueAlert (.image i k r.tag computed byParity)
    (e = none → .extent ∈ r.bad →
      exec (.imageSliceComplete t) s = .next ((ended ((s.advance t).raiseFault .image) .defective 0 true).nextSlice))
    ∧ (e = none → .extent ∉ r.bad → progress < count →
      exec (.imageSliceComplete t) s =
        .next (((s.advance t).setImage i { r with acc := some acc, progress := some progress }).nextSlice))
    ∧ (e = none → .extent ∉ r.bad → count ≤ progress → .expected ∈ r.bad →
      exec (.imageSliceComplete t) s = .next ((ended ((s.advance t).raiseFault .image) .defective 0 true).nextSlice))
    ∧ (e = none → .extent ∉ r.bad → count ≤ progress → .expected ∉ r.bad → r.expected = some (~~~acc) →
      exec (.imageSliceComplete t) s = .next ((ended (s.advance t) .ready (~~~acc) false).nextSlice))
    ∧ (e = none → .extent ∉ r.bad → count ≤ progress → .expected ∉ r.bad → r.expected ≠ some (~~~acc) →
      exec (.imageSliceComplete t) s = .next ((ended (s.advance t) .defective (~~~acc) false).nextSlice))
    ∧ ∀ k, e = some k →
      exec (.imageSliceComplete t) s =
        .next ((ended ((s.advance t).raiseFault k) .defective 0 true).nextSlice)

/-! ## The supply monitor (C7) -/

/-- SAMPLE_TIME at or after the next sample time starts a conversion, or sets periodic due while one runs, and moves the
next sample time by the period; before it only the time changes (log 4). SUPPLY SET writes the six settings when they are
legal, ends the candidate run and sets the next sample time, and is refused BAD_VALUE otherwise (R139). -/
def Obligations.SampleTimesAndSettings : Prop :=
  (∀ (s : State) (t : Time), Running s →
    (s.supply.nextSample ≤ max s.now t → s.supply.converter = .idle →
      exec (.sampleTime t) s =
        .next { s with
          now := max s.now t
          supply :=
            { s.supply with
              converter := .converting (max s.now t + 200) s.supply.waiting, waiting := [],
              nextSample := s.supply.nextSample + 1000 * s.supply.settings.period } })
    ∧ (∀ c served, s.supply.nextSample ≤ max s.now t → s.supply.converter = .converting c served →
      exec (.sampleTime t) s =
        .next { s with
          now := max s.now t
          supply :=
            { s.supply with
              periodicDue := true, nextSample := s.supply.nextSample + 1000 * s.supply.settings.period } })
    ∧ (max s.now t < s.supply.nextSample → exec (.sampleTime t) s = .next { s with now := max s.now t }))
  ∧ ∀ (s : State) (t : Time) (frame : CanFrame) (rest : List CanFrame), Asked s .supplySet frame rest →
    let p := params frame
    let g : SupplySettings :=
      ⟨fieldAt p 0 1, (BitVec.ofNat 16 (fieldAt p 1 2)).toInt, fieldAt p 3 2, fieldAt p 5 2, fieldAt p 7 2,
        fieldAt p 9 1⟩
    (LegalSettings g → exec (.supplySet t) s =
      .next (Answered
        { Taken s t rest with
          supply :=
            { s.supply with settings := g, run := none, nextSample := max s.now t + 1000 * g.period } }
        frame (doneBytes (b1 s.supply.state.code))))
    ∧ (¬ LegalSettings g → exec (.supplySet t) s = .next (Answered (Taken s t rest) frame (refusedBytes 1)))

/-- The candidate state of a conversion's value (R131), with the values of the rule's table at the default limits. -/
def Obligations.CandidateState : Prop :=
  (∀ (g : SupplySettings) (k : SupplyState) (v : Nat),
    let restore := if g.restoreLimit ≠ 0 then g.restoreLimit else if g.lowLimit ≠ 0 then g.lowLimit else g.criticalLimit
    (g.criticalLimit ≠ 0 ∧ v < g.criticalLimit → g.candidate k v = .critical)
    ∧ (¬ (g.criticalLimit ≠ 0 ∧ v < g.criticalLimit) → g.lowLimit ≠ 0 ∧ v < g.lowLimit → g.candidate k v = .low)
    ∧ (¬ (g.criticalLimit ≠ 0 ∧ v < g.criticalLimit) → ¬ (g.lowLimit ≠ 0 ∧ v < g.lowLimit) → restore ≤ v →
      g.candidate k v = .normal)
    ∧ (¬ (g.criticalLimit ≠ 0 ∧ v < g.criticalLimit) → ¬ (g.lowLimit ≠ 0 ∧ v < g.lowLimit) → v < restore →
      g.candidate k v = if k = .critical then .low else k))
  ∧ ∀ k, let g := Supply.reset.settings
    g.candidate k 9000 = .critical ∧ g.candidate k 10500 = .low
    ∧ g.candidate k 11200 = (if k = .normal then .normal else .low) ∧ g.candidate k 11500 = .normal

/-- CONVERSION_COMPLETE after its 0.2 ms takes the value into the filter: the current state as candidate ends the run,
another candidate runs on or starts anew, and the count that reaches the depth changes the state with a SUPPLY alert; then
each gate request served is answered, in ascending order of flow number (R137), and the next conversion starts, or the
converter is IDLE. The refusals of the hold come before the SUPPLY alert (R134); those among the answers join TRUNK at the
event's end, and which of them and the SUPPLY or a FAULT alert takes a slot first is free where the order decides (R162,
log 28). Before that only the time changes (log 4, log 17).
The set of gate requests served is held as a list, which is ascending in every run (GatesAscending). -/
def Obligations.ConversionCompletes : Prop :=
  (∀ (w : State) (done : Time) (flows : List FlowId), GatesAscending w → w.supply.converter = .converting done flows →
    flows = (List.finRange 16).filter fun f => f ∈ flows)
  ∧ ∀ (s : State) (t : Time) (raw : Nat), Running s →
    let m := s.supply
    let v := min 32767 (Int.toNat (raw - m.settings.offset))
    let k := m.settings.candidate m.state v
    let u := s.advance t
    let count := if m.run.map CandidateRun.candidate = some k then m.run.elim 0 CandidateRun.count + 1 else 1
    let served (w : State) : List FlowId := match w.supply.converter with
      | .idle => []
      | .converting _ flows => flows
    let filtered (w : State) : State := ((served w).foldl (State.gateAnswer v) w).nextConversion
    (∀ c served, m.converter = .converting c served → c ≤ max s.now t → k = m.state →
      exec (.conversionComplete t raw) s =
        .next (filtered { u with supply := { m with lastSample := some v, run := none } }).trunkTakes)
    ∧ (∀ c served, m.converter = .converting c served → c ≤ max s.now t → k ≠ m.state → count < m.settings.depth →
      exec (.conversionComplete t raw) s =
        .next (filtered { u with supply := { m with lastSample := some v, run := some ⟨k, count⟩ } }).trunkTakes)
    ∧ (∀ c served, m.converter = .converting c served → c ≤ max s.now t → k ≠ m.state → m.settings.depth ≤ count →
      let w := { u with supply := { m with lastSample := some v, state := k, run := none } }
      exec (.conversionComplete t raw) s =
        .next (filtered
          ((if k = .critical then allFlows.foldl State.supplyHold w
            else if m.state = .critical then allFlows.foldl State.supplyRelease w else w).offersComeFirst.queueAlert
            (.supply k m.state v))).trunkTakes)
    ∧ (m.converter = .idle ∨ (∃ c served, m.converter = .converting c served ∧ max s.now t < c) →
      exec (.conversionComplete t raw) s = .next u)

/-- The supply hold on entering CRITICAL and its end on leaving: SUPPLY joins the hold causes of a flow at work, an
INSPECTED parcel ends BROKEN and a GATED request ends, both with refusal SUPPLY and no failure, and a PASSING or REFUSED
record stays; on leaving, SUPPLY is removed (R134, R135). A refusal is offered to TRUNK, which it joins at the event's end
(R162, log 28; ConversionCompletes); the code of a gated request is a clause of GateAnswersAct. -/
def Obligations.SupplyHoldsFlows : Prop :=
  ∀ (s : State) (f : FlowId),
    let c := s.flow f
    let u := s.setFlow f { c with holds := { c.holds with supply := true } }
    (c.state.atWork = false → s.supplyHold f = s)
    ∧ (c.state.atWork = true →
      c.record = none ∨ c.record = some .refused ∨ (∃ d k, c.record = some (.passing d k)) → s.supplyHold f = u)
    ∧ (∀ n p, c.state.atWork = true → c.target = some n → c.record = some (.inspected p) →
      s.supplyHold f =
        ((((u.freeFlowCells f).abandonFlowSlice f).refuse n 0x63 .supply 0).setVerdict f .broken).setRecord f
          (if c.held.isSome then none else some .refused))
    ∧ (∀ n g, c.state.atWork = true → c.target = some n → c.record = some (.gated g) →
      s.supplyHold f = (((u.freeFlowCells f).withdrawGate f).setRecord f none).refuse n g.code .supply 0)
    ∧ s.supplyRelease f = s.setFlow f { c with holds := { c.holds with supply := false } }

/-- A gate answer: below the pass SUPPLY, a held ACTIVATE HELD, otherwise the held frame joins the segment queue and its
pending request begins, or BROKEN, detail 5, without room; a damaged target entry raises TARGET, with refusal ENDED, and
fails the flow (R81), a damaged cell raises CELL, with refusal BROKEN, detail 5 (R102); without a GATED record nothing; and
what the converter does after the answers. The order hold, target entry, cell, room is the model's (log 15). A refusal is
offered to TRUNK, which it joins at the event's end (R162, log 28; ConversionCompletes). The code and the pending request
of a gated request, and the state a flow takes with each pending request (R8, R47). -/
def Obligations.GateAnswersAct : Prop :=
  (∀ (s : State) (v : Nat) (f : FlowId) (n : TargetId) (g : Gated),
    (s.flow f).target = some n → (s.flow f).record = some (.gated g) →
    let m := s.supply
    let passes := m.state = .normal ∧ (m.settings.lowLimit = 0 ∨ m.settings.lowLimit ≤ v)
    let dropped := ((s.freeFlowCells f).withdrawGate f).setRecord f none
    let stopped := g = .activate ∧ (s.flow f).holds ≠ ⟨false, false⟩
    let segment := (s.target n).segment.port
    let x := s.heldCell f
    let frame : CanFrame := ⟨(s.target n).request, true, x.content.frame.elim false HeldFrameInfo.brs, x.content.bytes⟩
    (¬ passes → State.gateAnswer v s f = dropped.refuse n g.code .supply 0)
    ∧ (passes → stopped → State.gateAnswer v s f = dropped.refuse n g.code .held 0)
    ∧ (passes → ¬ stopped → (s.target n).parityBad = true →
      State.gateAnswer v s f = ((s.raiseFault .target).refuse n g.code .ended 0).failFlow f .tableFault)
    ∧ (passes → ¬ stopped → (s.target n).parityBad = false → x.parityBad = true →
      State.gateAnswer v s f =
        ((((s.raiseFault .cell).freeFlowCells f).withdrawGate f).setRecord f none).refuse n g.code .broken 5)
    ∧ (passes → ¬ stopped → (s.target n).parityBad = false → x.parityBad = false →
      s.room segment .dialogue = true →
      State.gateAnswer v s f =
        (Enqueued dropped segment .dialogue frame).setFlow f
          { dropped.flow f with
            pendingReq := some ⟨g.pendingKind, s.now + ms (s.flow f).params.responseTime⟩
            state := g.pendingKind.state })
    ∧ (passes → ¬ stopped → (s.target n).parityBad = false → x.parityBad = false →
      s.room segment .dialogue = false → State.gateAnswer v s f = dropped.refuse n g.code .broken 5))
  ∧ (∀ (s : State) (v : Nat) (f : FlowId), (∀ g, (s.flow f).record ≠ some (.gated g)) → State.gateAnswer v s f = s)
  ∧ (∀ (r : Nat) (o : OpenRegion) (seq : Byte) (k : Nat) (again : Bool),
    [Gated.erase r, .activate].map Gated.code = [0x61, 0x65]
    ∧ [Gated.erase r, .activate].map Gated.pendingKind = [.erase r, .activate]
    ∧ [PendingKind.erase r, .open_ o, .block seq k again, .close r, .abandon r, .activate].map PendingKind.state =
      [.erasing, .opening, .loading, .closing, .abandoning, .activating])
  ∧ ∀ s : State,
    (s.supply.periodicDue = true ∨ s.supply.waiting ≠ [] →
      s.nextConversion =
        { s with
          supply :=
            { s.supply with
              periodicDue := false, converter := .converting (s.now + 200) s.supply.waiting, waiting := [] } })
    ∧ (s.supply.periodicDue = false → s.supply.waiting = [] →
      s.nextConversion = { s with supply := { s.supply with converter := .idle } })

/-! ## Requests about the part, its ports and its routes (C8, C9) -/

/-- The responder removes a head frame without a tag and sends no reply, refuses UNKNOWN a code that no request has, and
refuses BAD_VALUE a request whose frame is too short for its parameters (R14), by the codes and sizes of R163. A command
for another head frame, or taken while a reply waits, changes only the time (log 1, log 4). -/
def Obligations.RequestsTurnedAway : Prop :=
  ∀ (s : State) (t : Time) (frame : CanFrame) (rest : List CanFrame), s.resetHeld = false → s.mgmt.slot = none →
    s.mgmt.queue = frame :: rest →
    let code := Request.ofByte (byteAt frame.data 0)
    (frame.data.length < 2 → exec (.requestWithoutTag t) s = .next (Taken s t rest))
    ∧ (2 ≤ frame.data.length → exec (.requestWithoutTag t) s = .next (s.advance t))
    ∧ (2 ≤ frame.data.length → code = none →
      exec (.unknown t) s = .next (Answered (Taken s t rest) frame (refusedBytes 8)))
    ∧ (frame.data.length < 2 ∨ code.isSome = true → exec (.unknown t) s = .next (s.advance t))
    ∧ (∀ r, 2 ≤ frame.data.length → code = some r → frame.data.length < 2 + r.paramBytes frame.data →
      exec (r.command t) s = .next (Answered (Taken s t rest) frame (refusedBytes 1)))
    ∧ (∀ r, code ≠ some r → exec (r.command t) s = .next (s.advance t))
    ∧ (∀ (w : State) (r : Request), w.resetHeld = false → w.mgmt.slot ≠ none →
      exec (r.command t) w = .next (w.advance t))
    ∧ (∀ (b : Byte) (r : Request), Request.ofByte b = some r ↔ r.code = b)
    ∧ ∀ d : List Byte,
      allRequests.map (fun r => (r, r.code.toNat, r.paramBytes d)) =
        [(.status, 0x01, 0), (.faultsClear, 0x02, 1), (.portSet, 0x10, 4), (.portRestart, 0x11, 1),
          (.routeWrite, 0x12, 14), (.routeRead, 0x13, 1), (.routingEnable, 0x14, 1), (.targetWrite, 0x20, 25),
          (.targetRead, 0x21, 1), (.imageBegin, 0x30, 8), (.imageRegion, 0x31, 14),
          (.imageChecks, 0x32, 4 + 4 * (byteAt d 5).toNat), (.imageEnd, 0x33, 6), (.imageDiscard, 0x34, 1),
          (.imageQuery, 0x35, 1), (.windowOpen, 0x40, 2), (.windowRenew, 0x41, 1), (.windowClose, 0x42, 0),
          (.flowBind, 0x50, 11), (.flowRelease, 0x51, 1), (.flowHold, 0x52, 1), (.flowResume, 0x53, 1),
          (.flowQuery, 0x54, 1), (.supplySet, 0x60, 10), (.supplyQuery, 0x61, 0)]

/-- REPLY_ENQUEUE moves a waiting reply, and ALERT_MOVE the head alert, to the TRUNK queue when there is room; the
responder is READY then, and the in-flight mark is set. Otherwise only the time changes (log 1, log 4). A READY responder
takes the head frame, and these moves are made, at once (R160, R161, R168): whatever of them is due is done, at the time of
the event that made it due and by the same effect as its own row, before any event from outside; which of several is first
is free (R162, log 2). Where an event has offered frames to TRUNK they join at its end, in their order; when a reply or an
alert can move as well, the alert not being one that a rule puts after a frame still offered (R59, R78, R134), and the free
slots do not hold all of them, or an offered frame carries a management identifier, which is taken first is free (R162; that
it holds for a response and a plain frame too is the model's reading, log 28). The bytes of each kind of alert (R16, R18), and the padding of a frame the part forms to the smallest
CAN FD data length (R17). -/
def Obligations.DueActionsTakenAtOnce : Prop :=
  let lateBytes : Option LateResponse → List Byte := fun l => match l with
    | none => [0, 0]
    | some x => [x.code, x.reason.getD 0]
  let alertData : Alert → List Byte := fun a => match a with
    | .flow f r =>
      [0x01] ++ b1 f.val ++ b1 r.target.val ++ b1 r.image.val ++ b1 r.state.code ++ b1 (r.condition.elim 0 Condition.code)
        ++ b1 (r.activationUnknown.toNat + 2 * r.late.isSome.toNat + 4 * r.holds.master.toNat
          + 8 * r.holds.supply.toNat + 16 * r.lastRefusal.isSome.toNat)
        ++ b1 (r.lastVerdict.elim 0xFF Verdict.code) ++ [r.lastRefusal.getD 0] ++ b1 r.failures ++ lateBytes r.late
    | .progress f r =>
      [0x02] ++ b1 f.val ++ b1 r.target.val ++ b1 r.region ++ [r.lastAccepted] ++ be 2 r.acceptedBlocks
        ++ be 4 r.acceptedBytes ++ be 4 r.remaining ++ [0x00]
    | .image i k tag computed byParity =>
      [0x03] ++ b1 i.val ++ b1 k.code ++ be 4 tag.toNat ++ be 4 computed.toNat ++ b1 byParity.toNat
    | .supply new previous value => [0x04, 0x00] ++ b1 new.code ++ b1 previous.code ++ be 2 value
    | .window cause failed => [0x05, 0x00] ++ b1 (if cause = .lapsed then 1 else 2) ++ b1 failed
    | .fault g =>
      [0x06, 0x00] ++ b1 (g.route.toNat + 2 * g.target.toNat + 4 * g.image.toNat + 8 * g.checklist.toNat
        + 16 * g.cell.toNat)
  let sizes := [0, 1, 2, 3, 4, 5, 6, 7, 8, 12, 16, 20, 24, 32, 48, 64]
  (∀ (id : CanId) (d : List Byte), d.length ≤ 64 →
    ∃ n, generatedFrame id d = ⟨id, true, true, d ++ List.replicate n 0x00⟩ ∧ d.length + n ∈ sizes
      ∧ ∀ m ∈ sizes, d.length ≤ m → d.length + n ≤ m)
  ∧ (∀ (s : State) (t : Time), s.resetHeld = false →
    (∀ frame, s.mgmt.slot = some frame → s.room .trunk (.generated .reply) = true →
      exec (.replyEnqueue t) s =
        .next (Enqueued { s.advance t with mgmt := ⟨s.mgmt.queue, none⟩ } .trunk (.generated .reply) frame))
    ∧ (s.mgmt.slot = none ∨ s.room .trunk (.generated .reply) = false →
      exec (.replyEnqueue t) s = .next (s.advance t))
    ∧ (∀ a rest, s.alerts.entries = a :: rest → s.alerts.inFlight = false →
      s.room .trunk (.generated .alert) = true →
      exec (.alertMove t) s =
        .next (Enqueued { s.advance t with alerts := ⟨rest, true⟩ } .trunk (.generated .alert)
          ⟨⟨.base, BitVec.ofNat 29 (0x7A0 + 4 * s.strap.toNat + 2)⟩, true, true, alertData a⟩))
    ∧ (s.alerts.entries = [] ∨ s.alerts.inFlight = true ∨ s.room .trunk (.generated .alert) = false →
      exec (.alertMove t) s = .next (s.advance t)))
  ∧ (∀ (s : State) (c : Instr), c.fromOutside = true → s.resetHeld = false → exec c s = exec c s.settle)
  ∧ (∀ s : State, s.resetHeld = false → s.offers = [] →
    Running s.settle ∧ s.settle.now = s.now ∧ s.settle.pending = s.pending ∧ s.settle.outside = s.outside)
  ∧ (∀ s : State, Running s → s.settle = s)
  ∧ (∀ s : State, s.resetHeld = false →
    (s.offers = [] → (s.atOnce = [] ↔ Running s))
    ∧ (∀ a, s.atOnce = [a] → s.settleOnce = s.doAtOnce a)
    ∧ (2 ≤ s.atOnce.length → ∃ a ∈ s.atOnce, s.settleOnce = { s with freeCount := s.freeCount + 1 }.doAtOnce a)
    ∧ (∀ frame, s.mgmt.slot = none → s.mgmt.queue.head? = some frame →
      AtOnce.take ∈ s.atOnce ∧ exec (frameCommand s.now frame) s = .next (s.doAtOnce .take))
    ∧ exec (.replyEnqueue s.now) s = .next (s.doAtOnce .reply)
    ∧ exec (.alertMove s.now) s = .next (s.doAtOnce .alert))
  ∧ ∀ s : State,
    let canReply := s.mgmt.slot ≠ none ∧ s.room .trunk (.generated .reply) = true
    let canAlert := s.alerts.entries ≠ [] ∧ s.alerts.inFlight = false ∧ s.room .trunk (.generated .alert) = true
      ∧ ∀ x ∈ s.offers, x.ahead = false
    let others : Nat := (if canReply then 1 else 0) + (if canAlert then 1 else 0)
    let decides := (canReply ∨ canAlert)
      ∧ (32 < (s.port .trunk).queue.length + s.offers.length + others
        ∨ ∃ x ∈ s.offers, x.frame.id ∈ managementIds s.strap)
    let free := { s with freeCount := s.freeCount + 1 }
    (s.offers = [] → s.trunkTakes = s)
    ∧ s.trunkTakes.offers = []
    ∧ ∀ o rest, s.offers = o :: rest →
      (¬ decides → s.trunkTakes = ({ s with offers := rest }.offer .trunk o.cls o.frame).trunkTakes)
      ∧ (decides →
        s.trunkTakes = ({ free with offers := rest }.offer .trunk o.cls o.frame).trunkTakes
        ∨ (∃ x, canReply ∧ s.mgmt.slot = some x
          ∧ s.trunkTakes =
            (Enqueued { free with mgmt := ⟨s.mgmt.queue, none⟩ } .trunk (.generated .reply) x).trunkTakes)
        ∨ ∃ a after, canAlert ∧ s.alerts.entries = a :: after
          ∧ s.trunkTakes =
            (Enqueued { free with alerts := ⟨after, true⟩ } .trunk (.generated .alert)
              ⟨⟨.base, BitVec.ofNat 29 (0x7A0 + 4 * s.strap.toNat + 2)⟩, true, true, alertData a⟩).trunkTakes)

/-- STATUS, SUPPLY QUERY, FLOW QUERY and IMAGE QUERY answer their fields (R164, R140, R165, R35) and change nothing else,
but that the last two remove their alert entry and IMAGE QUERY raises IMAGE on a parity error (the slots it reads:
log 23; one parity mark per field and slot: log 8). The codes of the named states, ports, segments and identifiers that replies and requests carry (R13, R18, R23), and
the order of the bytes of a field, most significant first (00_scope.md). -/
def Obligations.QueriesAnswer : Prop :=
  (∀ (s : State) (t : Time) (frame : CanFrame) (rest : List CanFrame),
    let u := Taken s t rest
    let n := fieldAt (params frame) 0 1
    let boundFields : Option Binding → List Byte := fun b => match b with
      | none => [0xFF, 0xFF, 0, 0, 0, 0, 0, 0, 0, 0] ++ List.replicate 8 0xFF
      | some b =>
        let q := b.params
        let region (k : Nat) : List Byte := b1 (b.regions[k]?.elim 0xFF RegionState.code)
        b1 b.target.val ++ b1 b.image.val ++ b1 q.level ++ b1 (if q.retryLimit = 16 then 0 else q.retryLimit)
          ++ b1 q.progressInterval ++ b1 (q.responseTime / 10) ++ b1 (q.waitExtension / 100) ++ b1 (q.gapLimit / 10)
          ++ b1 q.cellQuota ++ b1 b.regions.length
          ++ region 0 ++ region 1 ++ region 2 ++ region 3 ++ region 4 ++ region 5 ++ region 6 ++ region 7
    let pendingBytes : Option PendingReq → List Byte := fun p => match p with
      | none => [0, 0, 0, 0]
      | some ⟨.block seq a b, d⟩ =>
        [(PendingKind.block seq a b).code, seq] ++ be 2 ((d - max s.now t) / 1000)
      | some ⟨k, d⟩ => [k.code, 0] ++ be 2 ((d - max s.now t) / 1000)
    let parcelByte : Option ParcelRecord → List Byte := fun r => match r with
      | none => [0]
      | some (.inspected _) => [1]
      | some (.gated _) => [2]
      | some (.passing _ _) => [3]
      | some .refused => [4]
    let lateBytes : Option LateResponse → List Byte := fun l => match l with
      | none => [0, 0]
      | some x => [x.code, x.reason.getD 0]
    let flowFields (c : FlowCtx) : List Byte :=
      b1 c.state.code ++ boundFields c.binding ++ b1 (c.openRegion.elim 0xFF OpenRegion.region)
        ++ [c.expectedSeq, c.lastAccepted.getD 0] ++ be 2 c.acceptedBlocks ++ be 4 c.acceptedBytes
        ++ be 4 (c.openRegion.elim 0 fun o => o.length - c.acceptedBytes)
        ++ pendingBytes c.pendingReq ++ parcelByte c.record ++ b1 c.heldCells.length
        ++ b1 (c.holds.master.toNat + 2 * c.holds.supply.toNat) ++ b1 c.failures
        ++ b1 (c.lastVerdict.elim 0xFF Verdict.code) ++ [c.lastRefusal.getD 0] ++ b1 (c.condition.elim 0 Condition.code)
        ++ b1 (c.activationUnknown.toNat + 2 * c.late.isSome.toNat + 4 * c.holds.master.toNat
          + 8 * c.holds.supply.toNat + 16 * c.lastRefusal.isSome.toNat + 32 * c.lastAccepted.isSome.toNat)
        ++ lateBytes c.late
    let imageFields (r : ImageRecord) (indicator : Nat) : List Byte :=
      let loaded (k : SlotId) : Nat := (r.slots.get k).region.isSome.toNat
      b1 r.state.code ++ be 4 r.tag.toNat ++ b1 (r.regionCount.getD 0)
        ++ b1 (loaded 0 + 2 * loaded 1 + 4 * loaded 2 + 8 * loaded 3 + 16 * loaded 4 + 32 * loaded 5 + 64 * loaded 6
          + 128 * loaded 7)
        ++ (match r.extent with
          | some x => be 2 x.first ++ be 2 x.count
          | none => [0, 0, 0, 0])
        ++ be 2 (r.written.elim 0 fun m => m.countP id) ++ be 4 (r.expected.elim 0 BitVec.toNat)
        ++ b1 (r.level.getD 0xFF) ++ b1 r.refCount ++ be 2 (r.progress.getD 0xFFFF) ++ b1 indicator
    let damaged (r : ImageRecord) : Prop := r.bad ≠ [] ∨ ∃ k, (r.slots.get k).parityBad = true
    (Asked s .status frame rest → exec (.status t) s =
      .next (Answered u frame (doneBytes (
        ([0x36, 0x20, 0x02] : List Byte) ++ b1 s.mode.code ++ b1 s.defaultAction.code ++ b1 s.window.state.code
          ++ be 2 (match s.window.state, s.window.expiry with
            | .opened, some e => (e - max s.now t) / 1000
            | _, _ => 0)
          ++ b1 s.supply.state.code ++ be 2 (s.supply.lastSample.getD 0xFFFF)
          ++ be 2 (s.cells.toList.countP fun c => !c.inUse) ++ b1 (allFlows.countP fun f => (s.flow f).state != .free)
          ++ (b1 (s.port .trunk).conf.code ++ b1 (s.port .seg0).conf.code ++ b1 (s.port .seg1).conf.code
            ++ b1 (s.port .seg2).conf.code ++ b1 (s.port .seg3).conf.code)
          ++ b1 s.faults.byte ++ b1 s.strap.toNat ++ b1 s.alerts.entries.length))))
    ∧ (Asked s .supplyQuery frame rest → exec (.supplyQuery t) s = .next (Answered u frame (doneBytes (
        let m := s.supply
        let g := m.settings
        b1 m.state.code ++ be 2 (m.lastSample.getD 0xFFFF) ++ b1 g.period ++ be 2 (BitVec.ofInt 16 g.offset).toNat
          ++ be 2 g.lowLimit ++ be 2 g.criticalLimit ++ be 2 g.restoreLimit ++ b1 g.depth
          ++ (match m.run with
            | some x => b1 x.candidate.code ++ b1 x.count
            | none => [0xFF, 0x00])
          ++ (match m.converter with
            | .idle => b1 0 ++ b1 m.waiting.length
            | .converting _ served => b1 1 ++ b1 (m.waiting.length + served.length))))))
    ∧ (Asked s .flowQuery frame rest → 16 ≤ n → exec (.flowQuery t) s = .next (Answered u frame (refusedBytes 1)))
    ∧ (∀ f : FlowId, Asked s .flowQuery frame rest → n = f.val →
      exec (.flowQuery t) s =
        .next (Answered
          { u with alerts := { s.alerts with entries := s.alerts.entries.filter fun a => a.key != .flow f } } frame
          (doneBytes (flowFields (s.flow f)))))
    ∧ (Asked s .imageQuery frame rest → 16 ≤ n → exec (.imageQuery t) s = .next (Answered u frame (refusedBytes 1)))
    ∧ (∀ i : ImageId, Asked s .imageQuery frame rest → n = i.val → ¬ damaged (s.image i) →
      exec (.imageQuery t) s =
        .next (Answered
          { u with alerts := { s.alerts with entries := s.alerts.entries.filter fun a => a.key != .image i } } frame
          (doneBytes (imageFields (s.image i) 0))))
    ∧ ∀ i : ImageId, Asked s .imageQuery frame rest → n = i.val → damaged (s.image i) →
      exec (.imageQuery t) s =
        .next (Answered ((u.raiseFault .image).removeAlert (.image i)) frame (doneBytes (imageFields (s.image i) 1))))
  ∧ [FlowState.free, .idle, .erasing, .opening, .loading, .closing, .abandoning, .activating, .done, .failed].map
      FlowState.code = [0, 1, 2, 3, 4, 5, 6, 7, 8, 9]
  ∧ [Condition.windowLapsed, .windowClosed, .outOfWindow, .guarded, .retryLimit, .noResponse, .tableFault].map
      Condition.code = [1, 2, 3, 4, 5, 6, 7]
  ∧ [RegionState.blank, .erased, .opened, .verified, .short].map RegionState.code = [0, 1, 2, 3, 4]
  ∧ [ImageState.empty, .loading, .checking, .ready, .defective].map ImageState.code = [0, 1, 2, 3, 4]
  ∧ [PartMode.passthrough, .routing].map PartMode.code = [0, 1]
  ∧ [DefaultAction.flood, .drop].map DefaultAction.code = [0, 1]
  ∧ [WindowState.closed, .opened].map WindowState.code = [0, 1]
  ∧ [SupplyState.normal, .low, .critical].map SupplyState.code = [0, 1, 2]
  ∧ [Confinement.active, .passive, .off, .recovering].map Confinement.code = [0, 1, 2, 3]
  ∧ [Verdict.matched, .mismatch, .sequence, .overrun, .underrun, .broken, .tableFault].map Verdict.code =
      [0, 1, 2, 3, 4, 5, 6]
  ∧ [EntryState.empty, .valid].map EntryState.code = [0, 1]
  ∧ [RouteState.empty, .valid, .damaged].map RouteState.code = [0, 1, 2]
  ∧ [RouteClass.plain, .blocked].map RouteClass.code = [0, 1]
  ∧ [IdFormat.base, .extended].map formatCode = [0, 1]
  ∧ [Tracker.none, .passing, .refused].map Tracker.code = [0, 1, 2]
  ∧ [Segment.seg0, .seg1, .seg2, .seg3].map Segment.code = [0, 1, 2, 3]
  ∧ [Segment.seg0, .seg1, .seg2, .seg3].map Segment.port = [.seg0, .seg1, .seg2, .seg3]
  ∧ [Port.trunk, .seg0, .seg1, .seg2, .seg3].map portCode = [0, 1, 2, 3, 4]
  ∧ (∀ (m : PortSet) (p : Port), m.has p = m.getLsbD (portCode p))
  ∧ (∀ v : Nat,
    b1 v = [BitVec.ofNat 8 v] ∧ be 2 v = [BitVec.ofNat 8 (v / 2 ^ 8), BitVec.ofNat 8 v]
    ∧ be 4 v =
      [BitVec.ofNat 8 (v / 2 ^ 24), BitVec.ofNat 8 (v / 2 ^ 16), BitVec.ofNat 8 (v / 2 ^ 8), BitVec.ofNat 8 v])
  ∧ ∀ (d : List Byte) (k : Nat),
    let at_ (j : Nat) : Nat := (byteAt d j).toNat
    (k < d.length → fieldAt d k 1 = at_ k)
    ∧ (k + 2 ≤ d.length → fieldAt d k 2 = 2 ^ 8 * at_ k + at_ (k + 1))
    ∧ (k + 4 ≤ d.length →
      fieldAt d k 4 = 2 ^ 24 * at_ k + 2 ^ 16 * at_ (k + 1) + 2 ^ 8 * at_ (k + 2) + at_ (k + 3))

/-- FAULTS CLEAR clears the flags of its mask and answers the flags left; a mask with one of bits 5 to 7 set is refused
BAD_VALUE (R172). -/
def Obligations.FaultsClearClears : Prop :=
  ∀ (s : State) (t : Time) (frame : CanFrame) (rest : List CanFrame), Asked s .faultsClear frame rest →
    let mask := byteAt (params frame) 0
    let flags : FaultFlags :=
      ⟨s.faults.route && !mask.getLsbD 0, s.faults.target && !mask.getLsbD 1, s.faults.image && !mask.getLsbD 2,
        s.faults.checklist && !mask.getLsbD 3, s.faults.cell && !mask.getLsbD 4⟩
    let byte := flags.route.toNat + 2 * flags.target.toNat + 4 * flags.image.toNat + 8 * flags.checklist.toNat
      + 16 * flags.cell.toNat
    ((mask.getLsbD 5 || mask.getLsbD 6 || mask.getLsbD 7) = true →
      exec (.faultsClear t) s = .next (Answered (Taken s t rest) frame (refusedBytes 1)))
    ∧ ((mask.getLsbD 5 || mask.getLsbD 6 || mask.getLsbD 7) = false →
      exec (.faultsClear t) s =
        .next (Answered { Taken s t rest with faults := flags } frame (doneBytes [BitVec.ofNat 8 byte])))
    ∧ (flags = ⟨false, false, false, false, false⟩ → flags.line = false)

/-- PORT SET stores the rates and the auto-recovery setting and restarts the port; PORT RESTART restarts a port that is
OFF. A restart empties the queue and makes the port ACTIVE with both counts 0. A CAN FD frame with bit-rate switching
leaves with its data field at the data rate, every other frame at the nominal rate. At a segment that was ACTIVE or PASSIVE
the emptied queue has on each flow, in ascending number, the effect it has when the segment enters OFF (R153 step 2), which
is a clause of PortsEnterAndLeaveOff; the refusals it brings join TRUNK at the event's end, and which of them, the reply and
an alert takes a slot first is free where the order decides (R162, log 28). The codes of ports are a clause of
QueriesAnswer. -/
def Obligations.PortsSetAndRestarted : Prop :=
  (∀ (s : State) (t : Time) (frame : CanFrame) (rest : List CanFrame), Asked s .portSet frame rest →
    let q := params frame
    let nominals : List NominalRate := [.k125, .k250, .k500, .k1000]
    let datas : List DataRate := [.m1, .m2, .m4, .m5, .m8]
    (∀ p nominal data auto, fieldAt q 0 1 = portCode p → nominals[fieldAt q 1 1]? = some nominal →
      datas[fieldAt q 2 1]? = some data → fieldAt q 3 1 = Bool.toNat auto →
      exec (.portSet t) s =
        .next (Answered
          (((Taken s t rest).setPort p
            { s.port p with nominal := nominal, dataRate := data, autoRecovery := auto }).restart p) frame
          (doneBytes [])).trunkTakes)
    ∧ (4 < fieldAt q 0 1 ∨ 3 < fieldAt q 1 1 ∨ 4 < fieldAt q 2 1 ∨ 1 < fieldAt q 3 1 →
      exec (.portSet t) s = .next (Answered (Taken s t rest) frame (refusedBytes 1))))
  ∧ (∀ (s : State) (t : Time) (frame : CanFrame) (rest : List CanFrame), Asked s .portRestart frame rest →
    let n := fieldAt (params frame) 0 1
    (∀ p, n = portCode p → (s.port p).conf = .off →
      exec (.portRestart t) s = .next (Answered ((Taken s t rest).restart p) frame (doneBytes [])))
    ∧ (∀ p, n = portCode p → (s.port p).conf ≠ .off →
      exec (.portRestart t) s = .next (Answered (Taken s t rest) frame (refusedBytes 2)))
    ∧ (4 < n → exec (.portRestart t) s = .next (Answered (Taken s t rest) frame (refusedBytes 1))))
  ∧ (∀ (s : State) (p : Port), (s.restart p).port p =
    { s.port p with queue := [], txErrors := 0, rxErrors := 0, conf := .active, recessiveRuns := 0 })
  ∧ (∀ (s : State) (p : Port), p = .trunk ∨ (s.port p).conf.carries = false →
    s.restart p =
      { s with
        ports := s.ports.set p
          { s.port p with queue := [], txErrors := 0, rxErrors := 0, conf := .active, recessiveRuns := 0 }
        alerts :=
          { s.alerts with
            inFlight :=
              if ∃ q ∈ (s.port p).queue, q.cls = .generated .alert then false else s.alerts.inFlight } })
  ∧ (∀ (s : State) (p : Port), p ≠ .trunk → (s.port p).conf.carries = true →
    let w := (List.finRange 16).foldl (State.portReadsFlow p)
      { s with
        ports := s.ports.set p { s.port p with queue := [] }
        alerts :=
          { s.alerts with
            inFlight := if ∃ q ∈ (s.port p).queue, q.cls = .generated .alert then false else s.alerts.inFlight } }
    s.restart p =
      { w with
        ports := w.ports.set p
          { s.port p with queue := [], txErrors := 0, rxErrors := 0, conf := .active, recessiveRuns := 0 } })
  ∧ ∀ (u : PortUnit) (f : CanFrame),
    (f.fd = true ∧ f.brs = true → u.dataFieldRate f = .inr u.dataRate)
    ∧ (f.fd = false ∨ f.brs = false → u.dataFieldRate f = .inl u.nominal)

/-- ROUTE WRITE writes one entry whole, ROUTE READ reports one and finds its damage, ROUTING ENABLE sets the mode and the
default action. The read of an entry that is DAMAGED already sets no flag (log 29). The codes the fields carry are clauses
of QueriesAnswer. -/
def Obligations.RoutesWrittenReadAndEnabled : Prop :=
  ∀ (s : State) (t : Time) (frame : CanFrame) (rest : List CanFrame),
    let p := params frame
    let u := Taken s t rest
    let report (e : RouteEntry) (state indicator : Nat) : List Byte :=
      b1 state ++ b1 (formatCode e.format) ++ be 4 e.matchValue.toNat ++ be 4 e.matchMask.toNat ++ b1 e.ingress.toNat
        ++ b1 e.egress.toNat ++ b1 e.cls.code ++ b1 indicator
    (∀ n : RouteId, Asked s .routeWrite frame rest → fieldAt p 0 1 = n.val → fieldAt p 1 1 = 0 →
      exec (.routeWrite t) s =
        .next (Answered (u.setRoute n ⟨.empty, .base, 0, 0, 0, 0, .plain, false⟩) frame (doneBytes [])))
    ∧ (∀ (n : RouteId) (e : RouteEntry), Asked s .routeWrite frame rest → fieldAt p 0 1 = n.val → SpellsRoute p e →
      exec (.routeWrite t) s = .next (Answered (u.setRoute n e) frame (doneBytes [])))
    ∧ (Asked s .routeWrite frame rest →
      95 < fieldAt p 0 1 ∨ 1 < fieldAt p 1 1 ∨ (fieldAt p 1 1 = 1 ∧ ∀ e, ¬ SpellsRoute p e) →
      exec (.routeWrite t) s = .next (Answered u frame (refusedBytes 1)))
    ∧ (∀ n : RouteId, Asked s .routeRead frame rest → fieldAt p 0 1 = n.val →
      ¬ ((s.route n).state = .valid ∧ (s.route n).parityBad = true) →
      exec (.routeRead t) s =
        .next (Answered u frame (doneBytes
          (report (s.route n) (s.route n).state.code (if (s.route n).state = .damaged then 1 else 0)))))
    ∧ (∀ n : RouteId, Asked s .routeRead frame rest → fieldAt p 0 1 = n.val → (s.route n).state = .valid →
      (s.route n).parityBad = true →
      exec (.routeRead t) s =
        .next (Answered ((u.setRoute n { s.route n with state := .damaged }).raiseFault .route) frame
          (doneBytes (report (s.route n) 2 1))))
    ∧ (Asked s .routeRead frame rest → 95 < fieldAt p 0 1 →
      exec (.routeRead t) s = .next (Answered u frame (refusedBytes 1)))
    ∧ (Asked s .routingEnable frame rest → fieldAt p 0 1 ≤ 1 →
      exec (.routingEnable t) s =
        .next (Answered
          { u with mode := .routing, defaultAction := if fieldAt p 0 1 = 0 then .flood else .drop } frame
          (doneBytes (b1 s.mode.code))))
    ∧ (Asked s .routingEnable frame rest → 1 < fieldAt p 0 1 →
      exec (.routingEnable t) s = .next (Answered u frame (refusedBytes 1)))

/-! ## Requests of the target table and the manifest memory (C2) -/

/-- TARGET WRITE judges BAD_VALUE, BUSY, DUPLICATE in this order and writes the entry whole, its tracker NONE.
That every other VALID entry is read is the model's reading (log 21). -/
def Obligations.TargetsWritten : Prop :=
  ∀ (s : State) (t : Time) (frame : CanFrame) (rest : List CanFrame), Asked s .targetWrite frame rest →
    let p := params frame
    let u := Taken s t rest
    let other (n m : TargetId) : Prop := m ≠ n ∧ (s.target m).state = .valid
    let taken (n : TargetId) (i : CanId) : Prop :=
      i ∈ managementIds s.strap ∨ ∃ m, other n m ∧ (i = (s.target m).request ∨ i = (s.target m).response)
    (31 < fieldAt p 0 1 ∨ 1 < fieldAt p 1 1 ∨ (fieldAt p 1 1 = 1 ∧ ∀ e, ¬ SpellsTarget p e) →
      exec (.targetWrite t) s = .next (Answered u frame (refusedBytes 1)))
    ∧ (∀ n : TargetId, fieldAt p 0 1 = n.val → fieldAt p 1 1 = 0 ∨ (∃ e, SpellsTarget p e) → (∃ f, BoundTo s f n) →
      exec (.targetWrite t) s = .next (Answered u frame busyBytes))
    ∧ (∀ n : TargetId, fieldAt p 0 1 = n.val → fieldAt p 1 1 = 0 → Unbound s n →
      exec (.targetWrite t) s =
        .next (Answered (u.setTarget n ⟨.empty, .seg0, ⟨.base, 0⟩, ⟨.base, 0⟩, none, none, false, .none⟩) frame
          (doneBytes [])))
    ∧ ∀ (n : TargetId) (e : TargetEntry), fieldAt p 0 1 = n.val → SpellsTarget p e → Unbound s n →
      ((∃ m, other n m ∧ (s.target m).parityBad = true) →
        exec (.targetWrite t) s = .next (Answered (u.raiseFault .target) frame (refusedBytes 5)))
      ∧ ((∀ m, other n m → (s.target m).parityBad = false) →
        e.request = e.response ∨ taken n e.request ∨ taken n e.response →
        exec (.targetWrite t) s = .next (Answered u frame (refusedBytes 5)))
      ∧ ((∀ m, other n m → (s.target m).parityBad = false) →
        ¬ (e.request = e.response ∨ taken n e.request ∨ taken n e.response) →
        exec (.targetWrite t) s = .next (Answered (u.setTarget n e) frame (doneBytes [])))

/-- TARGET READ reports an entry as stored, its bound flow, its tracker and whether the read found a parity error, which
raises TARGET; the bytes of an absent guard window are free (log 10). -/
def Obligations.TargetsRead : Prop :=
  ∀ (s : State) (t : Time) (frame : CanFrame) (rest : List CanFrame), Asked s .targetRead frame rest →
    let number := fieldAt (params frame) 0 1
    (31 < number → exec (.targetRead t) s = .next (Answered (Taken s t rest) frame (refusedBytes 1)))
    ∧ ∀ n : TargetId, number = n.val →
      let e := s.target n
      let bad := e.state = .valid ∧ e.parityBad = true
      let id (i : CanId) : List Byte := b1 (formatCode i.format) ++ be 4 i.value.toNat
      ∃ (k : Nat) (guard0 guard1 : List Byte), GuardReport guard0 e.guard0 ∧ GuardReport guard1 e.guard1
        ∧ let u := { Taken s t rest with freeCount := k }
          let fields (bound indicator : Nat) : List Byte :=
            b1 e.state.code ++ b1 e.segment.code ++ id e.request ++ id e.response ++ guard0 ++ guard1 ++ b1 bound
              ++ b1 e.tracker.code ++ b1 indicator
          (∀ f, BoundTo s f n → ¬ bad →
            exec (.targetRead t) s = .next (Answered u frame (doneBytes (fields f.val 0))))
          ∧ (∀ f, BoundTo s f n → bad →
            exec (.targetRead t) s = .next (Answered (u.raiseFault .target) frame (doneBytes (fields f.val 1))))
          ∧ (Unbound s n → ¬ bad → exec (.targetRead t) s = .next (Answered u frame (doneBytes (fields 0xFF 0))))
          ∧ (Unbound s n → bad →
            exec (.targetRead t) s = .next (Answered (u.raiseFault .target) frame (doneBytes (fields 0xFF 1))))

/-- IMAGE BEGIN judges BAD_VALUE, a parity error ORDER, BUSY, ORDER, NO_ROOM in this order, and begins an EMPTY image with
the first gap that holds its checks (R27, R28); IMAGE DISCARD returns an unreferenced image to EMPTY (R34), judged with a
damaged reference count, which raises IMAGE, by the number of flows that are not FREE and name the image (R37); its slice in
the check engine is abandoned (R113). A new extent goes into the list in ascending order of first index (R27). -/
def Obligations.ImagesBegunAndDiscarded : Prop :=
  (∀ (s : State) (t : Time) (frame : CanFrame) (rest : List CanFrame), Asked s .imageBegin frame rest →
    let p := params frame
    let u := Taken s t rest
    let regions := fieldAt p 5 1
    let count := fieldAt p 6 2
    let legal := 1 ≤ regions ∧ regions ≤ 8 ∧ 1 ≤ count ∧ count ≤ 4096
    (15 < fieldAt p 0 1 ∨ ¬ legal → exec (.imageBegin t) s = .next (Answered u frame (refusedBytes 1)))
    ∧ ∀ i : ImageId, fieldAt p 0 1 = i.val → legal →
      let r := s.image i
      (LoadFieldsDamaged r → exec (.imageBegin t) s = .next (Answered (u.raiseFault .image) frame (refusedBytes 2)))
      ∧ (¬ LoadFieldsDamaged r → r.refCount ≠ 0 → exec (.imageBegin t) s = .next (Answered u frame busyBytes))
      ∧ (¬ LoadFieldsDamaged r → r.refCount = 0 → r.state ≠ .empty →
        exec (.imageBegin t) s = .next (Answered u frame (refusedBytes 2)))
      ∧ (¬ LoadFieldsDamaged r → r.refCount = 0 → r.state = .empty → firstFit count 0 s.extents = none →
        exec (.imageBegin t) s = .next (Answered u frame (refusedBytes 4)))
      ∧ ∀ first, ¬ LoadFieldsDamaged r → r.refCount = 0 → r.state = .empty →
        firstFit count 0 s.extents = some first →
        exec (.imageBegin t) s =
          .next (Answered
            { u with
              extents := insertExtent ⟨i, first, count⟩ s.extents
              images := s.images.set i
                { r with
                  state := .loading, tag := BitVec.ofNat 32 (fieldAt p 1 4), regionCount := some regions,
                  slots := Vector.replicate 8 ⟨none, false⟩, extent := some ⟨first, count⟩,
                  written := some (List.replicate count false),
                  bad := r.bad.filter fun k => !([ImageField.state, .tag, .regionCount, .extent, .written].contains k) } }
            frame (doneBytes (be 2 first))))
  ∧ (∀ (l : List ExtentEntry) (count : Nat), ExtentsOrdered l → 0 < count →
    (∀ k, firstFit count 0 l = some k → ExtentFits l count k ∧ ∀ j, j < k → ¬ ExtentFits l count j)
    ∧ (firstFit count 0 l = none → ∀ k, ¬ ExtentFits l count k))
  ∧ (∀ (x : ExtentEntry) (before after : List ExtentEntry), (∀ e ∈ before, e.first ≤ x.first) →
    (∀ e ∈ after, x.first < e.first) → insertExtent x (before ++ after) = before ++ x :: after)
  ∧ (∀ (s : State) (i : ImageId),
    s.abandonImageSlice i =
      { s with
        engine := s.engine.map fun x =>
          match x.work with
          | .image j _ _ _ => if j = i then { x with abandoned := true } else x
          | .flow _ _ _ => x })
  ∧ ∀ (s : State) (t : Time) (frame : CanFrame) (rest : List CanFrame), Asked s .imageDiscard frame rest →
    let u := Taken s t rest
    let number := fieldAt (params frame) 0 1
    (15 < number → exec (.imageDiscard t) s = .next (Answered u frame (refusedBytes 1)))
    ∧ ∀ i : ImageId, number = i.val →
      let naming := allFlows.countP fun f => (s.flow f).state != .free && (s.flow f).binding.map Binding.image == some i
      let damaged := ImageField.refCount ∈ (s.image i).bad
      let discarded (v : State) : State :=
        { v.abandonImageSlice i with
          extents := s.extents.filter fun e => e.image ≠ i
          images := s.images.set i
            ⟨.empty, 0, none, Vector.replicate 8 ⟨none, false⟩, none, none, none, none, 0, none, none, []⟩ }
      (¬ damaged → (s.image i).refCount ≠ 0 → exec (.imageDiscard t) s = .next (Answered u frame busyBytes))
      ∧ (¬ damaged → (s.image i).refCount = 0 →
        exec (.imageDiscard t) s = .next (Answered (discarded u) frame (doneBytes [])))
      ∧ (damaged → naming ≠ 0 →
        exec (.imageDiscard t) s = .next (Answered (u.raiseFault .image) frame busyBytes))
      ∧ (damaged → naming = 0 →
        exec (.imageDiscard t) s = .next (Answered (discarded (u.raiseFault .image)) frame (doneBytes [])))

/-- IMAGE REGION loads a slot of a LOADING image whose window meets no other loaded one (R29); IMAGE CHECKS writes check
values into its extent and marks them written (R30). A damaged field either reads raises IMAGE and is refused ORDER (R37); a
damaged other slot of the image's regions raises IMAGE and is refused OVERLAP (R29; log 21, log 23). -/
def Obligations.RegionsAndChecksLoaded : Prop :=
  (∀ (s : State) (t : Time) (frame : CanFrame) (rest : List CanFrame), Asked s .imageRegion frame rest →
    let p := params frame
    let u := Taken s t rest
    (15 < fieldAt p 0 1 ∨ (∀ g, ¬ SpellsRegion p g) →
      exec (.imageRegion t) s = .next (Answered u frame (refusedBytes 1)))
    ∧ (∀ (i : ImageId) (g : Region), fieldAt p 0 1 = i.val → SpellsRegion p g → LoadFieldsDamaged (s.image i) →
      exec (.imageRegion t) s = .next (Answered (u.raiseFault .image) frame (refusedBytes 2)))
    ∧ ∀ (i : ImageId) (g : Region), fieldAt p 0 1 = i.val → SpellsRegion p g → ¬ LoadFieldsDamaged (s.image i) →
      let r := s.image i
      let meets (k j : SlotId) : Prop :=
        j ≠ k ∧ j.val < r.regionCount.getD 0 ∧ ∃ q, (r.slots.get j).region = some q ∧ g.base < q.base + windowSize q.sizeCode
          ∧ q.base < g.base + windowSize g.sizeCode
      (r.refCount ≠ 0 → exec (.imageRegion t) s = .next (Answered u frame busyBytes))
      ∧ (r.refCount = 0 → r.state ≠ .loading → exec (.imageRegion t) s = .next (Answered u frame (refusedBytes 2)))
      ∧ (r.refCount = 0 → r.state = .loading → r.regionCount.getD 0 ≤ fieldAt p 1 1 →
        exec (.imageRegion t) s = .next (Answered u frame (refusedBytes 1)))
      ∧ ∀ k : SlotId, r.refCount = 0 → r.state = .loading → fieldAt p 1 1 = k.val → k.val < r.regionCount.getD 0 →
        let damaged := ∃ j : SlotId, j ≠ k ∧ j.val < r.regionCount.getD 0 ∧ (r.slots.get j).parityBad = true
        (damaged → exec (.imageRegion t) s = .next (Answered (u.raiseFault .image) frame (refusedBytes 7)))
        ∧ (¬ damaged → (∃ j, meets k j) → exec (.imageRegion t) s = .next (Answered u frame (refusedBytes 7)))
        ∧ (¬ damaged → (∀ j, ¬ meets k j) →
          exec (.imageRegion t) s =
            .next (Answered (u.setImage i { r with slots := r.slots.set k ⟨some g, false⟩ }) frame
              (doneBytes (be 4 ((g.length + g.blockLength - 1) / g.blockLength))))))
  ∧ ∀ (s : State) (t : Time) (frame : CanFrame) (rest : List CanFrame), Asked s .imageChecks frame rest →
    let p := params frame
    let u := Taken s t rest
    let start := fieldAt p 1 2
    let n := fieldAt p 3 1
    (15 < fieldAt p 0 1 ∨ n = 0 ∨ 13 < n → exec (.imageChecks t) s = .next (Answered u frame (refusedBytes 1)))
    ∧ (∀ i : ImageId, fieldAt p 0 1 = i.val → 1 ≤ n → n ≤ 13 → LoadFieldsDamaged (s.image i) →
      exec (.imageChecks t) s = .next (Answered (u.raiseFault .image) frame (refusedBytes 2)))
    ∧ ∀ i : ImageId, fieldAt p 0 1 = i.val → 1 ≤ n → n ≤ 13 → ¬ LoadFieldsDamaged (s.image i) →
      let r := s.image i
      (r.refCount ≠ 0 → exec (.imageChecks t) s = .next (Answered u frame busyBytes))
      ∧ (r.refCount = 0 → r.state ≠ .loading → exec (.imageChecks t) s = .next (Answered u frame (refusedBytes 2)))
      ∧ ∀ x marks, r.refCount = 0 → r.state = .loading → r.extent = some x → r.written = some marks →
        (x.count < start + n → exec (.imageChecks t) s = .next (Answered u frame (refusedBytes 1)))
        ∧ (start + n ≤ x.count → x.first + x.count ≤ 4096 → CheckListOk s →
          ∃ mem marks',
            exec (.imageChecks t) s =
              .next (Answered ({ u with checkList := mem }.setImage i { r with written := some marks' }) frame
                (doneBytes (be 2 (marks'.countP id))))
            ∧ (∀ k, k < n →
              mem.read (x.first + start + k) = ⟨BitVec.ofNat 32 (fieldAt p (4 + 4 * k) 4), false⟩)
            ∧ (∀ j, j < x.first + start ∨ x.first + start + n ≤ j → mem.read j = s.checkList.read j)
            ∧ ∀ j : Nat, marks'[j]? = marks[j]?.map fun m => m || decide (start ≤ j ∧ j < start + n))

/-- IMAGE END starts the self-check of a complete LOADING image, which becomes a requester of the check engine, and is
refused INCOMPLETE otherwise (R31). A damaged field it reads raises IMAGE and is refused ORDER (R37); a damaged slot raises
IMAGE and is refused INCOMPLETE whatever else fails (log 21). Which fields carry a parity mark of their own, and that the
fields written are fresh after it, is the model's form of parity (log 8). -/
def Obligations.ImageEndStartsTheSelfCheck : Prop :=
  ∀ (s : State) (t : Time) (frame : CanFrame) (rest : List CanFrame), Asked s .imageEnd frame rest →
    let p := params frame
    let u := Taken s t rest
    (15 < fieldAt p 0 1 ∨ 7 < fieldAt p 5 1 → exec (.imageEnd t) s = .next (Answered u frame (refusedBytes 1)))
    ∧ (∀ i : ImageId, fieldAt p 0 1 = i.val → fieldAt p 5 1 ≤ 7 → LoadFieldsDamaged (s.image i) →
      exec (.imageEnd t) s = .next (Answered (u.raiseFault .image) frame (refusedBytes 2)))
    ∧ ∀ i : ImageId, fieldAt p 0 1 = i.val → fieldAt p 5 1 ≤ 7 → ¬ LoadFieldsDamaged (s.image i) →
      let r := s.image i
      let used := r.slots.toList.take (r.regionCount.getD 0)
      let checks : Slot → Nat := fun y => match y.region with
        | some g => (g.length + g.blockLength - 1) / g.blockLength
        | none => 0
      let complete := (∀ x ∈ used, x.region.isSome = true) ∧ (used.map checks).sum = r.extent.elim 0 Extent.count
        ∧ ∀ m ∈ r.written.getD [], m = true
      (r.refCount ≠ 0 → exec (.imageEnd t) s = .next (Answered u frame busyBytes))
      ∧ (r.refCount = 0 → r.state ≠ .loading → exec (.imageEnd t) s = .next (Answered u frame (refusedBytes 2)))
      ∧ (r.refCount = 0 → r.state = .loading → (∃ x ∈ used, x.parityBad = true) →
        exec (.imageEnd t) s = .next (Answered (u.raiseFault .image) frame (refusedBytes 6)))
      ∧ (r.refCount = 0 → r.state = .loading → (∀ x ∈ used, x.parityBad = false) → ¬ complete →
        exec (.imageEnd t) s = .next (Answered u frame (refusedBytes 6)))
      ∧ (r.refCount = 0 → r.state = .loading → (∀ x ∈ used, x.parityBad = false) → complete →
        exec (.imageEnd t) s =
          .next (Answered
            ((u.setImage i
              { r with
                state := .checking, expected := some (BitVec.ofNat 32 (fieldAt p 1 4)), level := some (fieldAt p 5 1),
                progress := some 0, acc := some 0xFFFFFFFF,
                bad := r.bad.filter fun k => !([ImageField.state, .expected, .level].contains k) }).wakeEngine (.image i))
            frame (doneBytes [])))

/-! ## Requests of the window, the flows and the supply monitor (C3, C6, C7) -/

/-- WINDOW OPEN, WINDOW RENEW and WINDOW CLOSE with the checks of R116, R117 and R119 in order; at WINDOW OPEN the tracker of
every target that has a bound flow becomes NONE (R69). -/
def Obligations.WindowOpensRenewsAndCloses : Prop :=
  ∀ (s : State) (t : Time) (frame : CanFrame) (rest : List CanFrame),
    let p := params frame
    let u := Taken s t rest
    let period := fieldAt p 0 2
    let stepByte := fieldAt p 0 1
    (Asked s .windowOpen frame rest →
      (period = 0 ∨ 600 < period → exec (.windowOpen t) s = .next (Answered u frame (refusedBytes 1)))
      ∧ (1 ≤ period → period ≤ 600 → s.mode = .passthrough ∨ s.window.state = .opened →
        exec (.windowOpen t) s = .next (Answered u frame (refusedBytes 2)))
      ∧ (1 ≤ period → period ≤ 600 → s.mode = .routing → s.window.state = .closed →
        ∃ targets : Vector TargetEntry 32,
          exec (.windowOpen t) s =
            .next (Answered
              { u with
                window := ⟨.opened, some (100 * period), some (max s.now t + 100000 * period), .none⟩
                targets := targets }
              frame (doneBytes []))
          ∧ ∀ n, targets.get n =
            { s.target n with
              tracker :=
                if ∃ f, (s.flow f).state ≠ .free ∧ (s.flow f).target = some n then .none else (s.target n).tracker }))
    ∧ (Asked s .windowRenew frame rest →
      (stepByte ≠ 1 → stepByte ≠ 2 → exec (.windowRenew t) s = .next (Answered u frame (refusedBytes 1)))
      ∧ (stepByte = 1 ∨ stepByte = 2 → s.window.state = .closed →
        exec (.windowRenew t) s = .next (Answered u frame (refusedBytes 2)))
      ∧ (stepByte = 2 → s.window.state = .opened → s.window.renewal = .none →
        exec (.windowRenew t) s = .next (Answered u frame (refusedBytes 2)))
      ∧ (stepByte = 1 → s.window.state = .opened →
        exec (.windowRenew t) s =
          .next (Answered { u with window := { s.window with renewal := .armed } } frame (doneBytes [0x01])))
      ∧ (∀ period, stepByte = 2 → s.window.state = .opened → s.window.renewal = .armed →
        s.window.period = some period →
        exec (.windowRenew t) s =
          .next (Answered
            { u with window := { s.window with expiry := some (max s.now t + 1000 * period), renewal := .none } } frame
            (doneBytes [0x00]))))
    ∧ (Asked s .windowClose frame rest →
      (s.window.state = .closed → exec (.windowClose t) s = .next (Answered u frame (refusedBytes 2)))
      ∧ (s.window.state = .opened →
        exec (.windowClose t) s =
          .next (Answered (u.closeWindow .closed) frame
            (doneBytes (b1 (allFlows.countP fun f => (s.flow f).state.atWork))))))

/-- FLOW BIND judges its checks in the order of R42 and binds a FREE flow; FLOW RELEASE returns a flow to FREE (R43).
A reference count that reads 0 at a release, which only damage brings, stays 0 (log 24). -/
def Obligations.FlowsBoundAndReleased : Prop :=
  (∀ (s : State) (t : Time) (frame : CanFrame) (rest : List CanFrame), Asked s .flowBind frame rest →
    let p := params frame
    let u := Taken s t rest
    (15 < fieldAt p 0 1 → exec (.flowBind t) s = .next (Answered u frame (refusedBytes 1)))
    ∧ ∀ f : FlowId, fieldAt p 0 1 = f.val →
      (s.window.state = .closed ∨ (s.flow f).state ≠ .free →
        exec (.flowBind t) s = .next (Answered u frame (refusedBytes 2)))
      ∧ (s.window.state = .opened → (s.flow f).state = .free →
        31 < fieldAt p 1 1 ∨ 15 < fieldAt p 2 1 ∨ (∀ q, ¬ SpellsParams p q) →
        exec (.flowBind t) s = .next (Answered u frame (refusedBytes 1)))
      ∧ ∀ (n : TargetId) (i : ImageId) (q : FlowParams), s.window.state = .opened → (s.flow f).state = .free →
        fieldAt p 1 1 = n.val → fieldAt p 2 1 = i.val → SpellsParams p q →
        let badImage := ImageField.state ∈ (s.image i).bad ∨ ImageField.regionCount ∈ (s.image i).bad
        ((s.target n).state = .valid → (s.target n).parityBad = true →
          exec (.flowBind t) s = .next (Answered (u.raiseFault .target) frame busyBytes))
        ∧ ((s.target n).state = .empty ∨ ((s.target n).parityBad = false ∧ ∃ g, BoundTo s g n) →
          exec (.flowBind t) s = .next (Answered u frame busyBytes))
        ∧ (Sound s n → Unbound s n → badImage →
          exec (.flowBind t) s = .next (Answered (u.raiseFault .image) frame (refusedBytes 2)))
        ∧ (Sound s n → Unbound s n → ¬ badImage → (s.image i).state ≠ .ready →
          exec (.flowBind t) s = .next (Answered u frame (refusedBytes 2)))
        ∧ (Sound s n → Unbound s n → ¬ badImage → (s.image i).state = .ready →
          exec (.flowBind t) s =
            .next (Answered
              { u with
                flows := s.flows.set f
                  { state := .idle
                    binding := some ⟨n, i, q, List.replicate ((s.image i).regionCount.getD 0) .blank⟩
                    openRegion := none, expectedSeq := 1, lastAccepted := none, acceptedBlocks := 0,
                    acceptedBytes := 0, pendingReq := none, record := none, held := none, fifo := [],
                    acc := 0xFFFFFFFF, holds := ⟨false, s.supply.state == .critical⟩, failures := 0,
                    lastVerdict := none, lastRefusal := none, condition := none, activationUnknown := false,
                    late := none, sinceProgress := 0 }
                images := s.images.set i { s.image i with refCount := (s.image i).refCount + 1 }
                targets := s.targets.set n { s.target n with tracker := .none } }
              frame (doneBytes []))))
  ∧ ∀ (s : State) (t : Time) (frame : CanFrame) (rest : List CanFrame), Asked s .flowRelease frame rest →
    let number := fieldAt (params frame) 0 1
    let u := Taken s t rest
    (15 < number → exec (.flowRelease t) s = .next (Answered u frame (refusedBytes 1)))
    ∧ ∀ f : FlowId, number = f.val →
      ((s.flow f).state = .free → exec (.flowRelease t) s = .next (Answered u frame (refusedBytes 2)))
      ∧ ∀ b, (s.flow f).state ≠ .free → (s.flow f).binding = some b →
        let v := (((u.freeFlowCells f).abandonFlowSlice f).withdrawGate f).removeAlert (.flow f)
        exec (.flowRelease t) s =
          .next (Answered
            { v with
              flows := s.flows.set f FlowCtx.reset
              images := s.images.set b.image { s.image b.image with refCount := (s.image b.image).refCount - 1 }
              targets := s.targets.set b.target { s.target b.target with tracker := .none } }
            frame (doneBytes (b1 (s.flow f).state.code)))

/-- FLOW HOLD adds MASTER to the hold causes of a flow at work and FLOW RESUME removes it; both answer the set, bit 0
MASTER and bit 1 SUPPLY. A number above 15 is refused BAD_VALUE, a FREE, DONE or FAILED flow ORDER (R61, R62). -/
def Obligations.HoldAndResume : Prop :=
  ∀ (s : State) (t : Time) (frame : CanFrame) (rest : List CanFrame),
    let number := fieldAt (params frame) 0 1
    let u := Taken s t rest
    (Asked s .flowHold frame rest →
      (15 < number → exec (.flowHold t) s = .next (Answered u frame (refusedBytes 1)))
      ∧ ∀ f : FlowId, number = f.val →
        ((s.flow f).state = .free ∨ (s.flow f).state = .done ∨ (s.flow f).state = .failed →
          exec (.flowHold t) s = .next (Answered u frame (refusedBytes 2)))
        ∧ ((s.flow f).state ≠ .free → (s.flow f).state ≠ .done → (s.flow f).state ≠ .failed →
          exec (.flowHold t) s =
            .next (Answered (u.setFlow f { s.flow f with holds := ⟨true, (s.flow f).holds.supply⟩ }) frame
              (doneBytes [if (s.flow f).holds.supply then 0x03 else 0x01]))))
    ∧ (Asked s .flowResume frame rest →
      (15 < number → exec (.flowResume t) s = .next (Answered u frame (refusedBytes 1)))
      ∧ ∀ f : FlowId, number = f.val →
        ((s.flow f).state = .free ∨ (s.flow f).state = .done ∨ (s.flow f).state = .failed →
          exec (.flowResume t) s = .next (Answered u frame (refusedBytes 2)))
        ∧ ((s.flow f).state ≠ .free → (s.flow f).state ≠ .done → (s.flow f).state ≠ .failed →
          exec (.flowResume t) s =
            .next (Answered (u.setFlow f { s.flow f with holds := ⟨false, (s.flow f).holds.supply⟩ }) frame
              (doneBytes [if (s.flow f).holds.supply then 0x02 else 0x00]))))

/-! ## Invariants -/

/-- Every step keeps the transmit queues in key order, within 32 frames and their shares, empty while the port is OFF or
RECOVERING, and the request queue within 4 frames; and the two sets of gate requests ascending (R127, R137). No step that
starts without a frame offered to TRUNK leaves one (the model's own field, log 28). -/
def Obligations.QueuesKept : Prop :=
  (∀ s s', QueuesOk s → step s = .next s' → QueuesOk s')
  ∧ (∀ s s', GatesAscending s → step s = .next s' → GatesAscending s')
  ∧ ∀ s s', s.offers = [] → step s = .next s' → s'.offers = []

/-- Every step keeps at most one alert entry per key, the check list memory in its canonical form (log 7), and the extent
list in ascending order of first index, disjoint and inside the memory (R27). -/
def Obligations.AlertKeysCheckListAndExtentsKept : Prop :=
  (∀ s s', AlertKeysDistinct s → step s = .next s' → AlertKeysDistinct s')
  ∧ (∀ s s', CheckListOk s → step s = .next s' → CheckListOk s')
  ∧ ∀ s s', ExtentsOrdered s.extents → step s = .next s' → ExtentsOrdered s'.extents

/-- Every step keeps the identifiers of the undamaged targets and of management distinct. -/
def Obligations.IdsKept : Prop :=
  ∀ s s', IdsDistinct s → step s = .next s' → IdsDistinct s'

/-- Every step keeps each flow context consistent, and no flow at work while the window is CLOSED; and
from such a state every step keeps at most one flow bound to a target (R42). -/
def Obligations.FlowsKept : Prop :=
  (∀ s s', FlowsOk s → step s = .next s' → FlowsOk s')
  ∧ ∀ s s', FlowsOk s → TargetsBoundOnce s → step s = .next s' → TargetsBoundOnce s'

/-- Every step keeps the pool in agreement with the flows. -/
def Obligations.PoolKept : Prop :=
  ∀ s s', FlowsOk s → PoolOk s → step s = .next s' → PoolOk s'

/-- The free cells and the cells the flows hold are 512 together, and the reset state has every invariant. -/
def Obligations.CellsConservedAndResetSound : Prop :=
  (∀ s, PoolOk s → s.freeCells + cellsHeld s = 512)
  ∧ QueuesOk State.reset ∧ AlertKeysDistinct State.reset ∧ CheckListOk State.reset ∧ IdsDistinct State.reset
  ∧ FlowsOk State.reset ∧ PoolOk State.reset ∧ GatesAscending State.reset ∧ ExtentsOrdered State.reset.extents
  ∧ TargetsBoundOnce State.reset ∧ State.reset.offers = []
end

