-- ==== Sys2Proof/Laws/State.lean ====
section
/-! SUPPORT. What each plain update of the state leaves as it was: one lemma for each field and each record read,
true by definition, so that no later proof unfolds a record update. -/

namespace Sys2Proof.Machine

/-! One theorem is checked after another: many at once pass the memory limit. -/

set_option Elab.async false

variable (s : State)

/-! advance: changes only now -/

@[simp] theorem State.advance_pending (t : Time) : (s.advance t).pending = s.pending := rfl
@[simp] theorem State.advance_offers (t : Time) : (s.advance t).offers = s.offers := rfl
@[simp] theorem State.advance_outside (t : Time) : (s.advance t).outside = s.outside := rfl
@[simp] theorem State.advance_freeCount (t : Time) : (s.advance t).freeCount = s.freeCount := rfl
@[simp] theorem State.advance_resetHeld (t : Time) : (s.advance t).resetHeld = s.resetHeld := rfl
@[simp] theorem State.advance_strap (t : Time) : (s.advance t).strap = s.strap := rfl
@[simp] theorem State.advance_mode (t : Time) : (s.advance t).mode = s.mode := rfl
@[simp] theorem State.advance_defaultAction (t : Time) : (s.advance t).defaultAction = s.defaultAction := rfl
@[simp] theorem State.advance_routes (t : Time) : (s.advance t).routes = s.routes := rfl
@[simp] theorem State.advance_targets (t : Time) : (s.advance t).targets = s.targets := rfl
@[simp] theorem State.advance_images (t : Time) : (s.advance t).images = s.images := rfl
@[simp] theorem State.advance_checkList (t : Time) : (s.advance t).checkList = s.checkList := rfl
@[simp] theorem State.advance_extents (t : Time) : (s.advance t).extents = s.extents := rfl
@[simp] theorem State.advance_flows (t : Time) : (s.advance t).flows = s.flows := rfl
@[simp] theorem State.advance_cells (t : Time) : (s.advance t).cells = s.cells := rfl
@[simp] theorem State.advance_engine (t : Time) : (s.advance t).engine = s.engine := rfl
@[simp] theorem State.advance_window (t : Time) : (s.advance t).window = s.window := rfl
@[simp] theorem State.advance_supply (t : Time) : (s.advance t).supply = s.supply := rfl
@[simp] theorem State.advance_ports (t : Time) : (s.advance t).ports = s.ports := rfl
@[simp] theorem State.advance_mgmt (t : Time) : (s.advance t).mgmt = s.mgmt := rfl
@[simp] theorem State.advance_alerts (t : Time) : (s.advance t).alerts = s.alerts := rfl
@[simp] theorem State.advance_faults (t : Time) : (s.advance t).faults = s.faults := rfl
@[simp] theorem State.advance_flow (t : Time) (g : FlowId) : (s.advance t).flow g = s.flow g := rfl
@[simp] theorem State.advance_target (t : Time) (m : TargetId) : (s.advance t).target m = s.target m := rfl
@[simp] theorem State.advance_route (t : Time) (m : RouteId) : (s.advance t).route m = s.route m := rfl
@[simp] theorem State.advance_image (t : Time) (j : ImageId) : (s.advance t).image j = s.image j := rfl
@[simp] theorem State.advance_cell (t : Time) (d : CellId) : (s.advance t).cell d = s.cell d := rfl
@[simp] theorem State.advance_port (t : Time) (q : Port) : (s.advance t).port q = s.port q := rfl

/-! setFlow: changes only flows -/

@[simp] theorem State.setFlow_pending (f : FlowId) (c : FlowCtx) : (s.setFlow f c).pending = s.pending := rfl
@[simp] theorem State.setFlow_offers (f : FlowId) (c : FlowCtx) : (s.setFlow f c).offers = s.offers := rfl
@[simp] theorem State.setFlow_outside (f : FlowId) (c : FlowCtx) : (s.setFlow f c).outside = s.outside := rfl
@[simp] theorem State.setFlow_now (f : FlowId) (c : FlowCtx) : (s.setFlow f c).now = s.now := rfl
@[simp] theorem State.setFlow_freeCount (f : FlowId) (c : FlowCtx) : (s.setFlow f c).freeCount = s.freeCount := rfl
@[simp] theorem State.setFlow_resetHeld (f : FlowId) (c : FlowCtx) : (s.setFlow f c).resetHeld = s.resetHeld := rfl
@[simp] theorem State.setFlow_strap (f : FlowId) (c : FlowCtx) : (s.setFlow f c).strap = s.strap := rfl
@[simp] theorem State.setFlow_mode (f : FlowId) (c : FlowCtx) : (s.setFlow f c).mode = s.mode := rfl
@[simp] theorem State.setFlow_defaultAction (f : FlowId) (c : FlowCtx) : (s.setFlow f c).defaultAction = s.defaultAction := rfl
@[simp] theorem State.setFlow_routes (f : FlowId) (c : FlowCtx) : (s.setFlow f c).routes = s.routes := rfl
@[simp] theorem State.setFlow_targets (f : FlowId) (c : FlowCtx) : (s.setFlow f c).targets = s.targets := rfl
@[simp] theorem State.setFlow_images (f : FlowId) (c : FlowCtx) : (s.setFlow f c).images = s.images := rfl
@[simp] theorem State.setFlow_checkList (f : FlowId) (c : FlowCtx) : (s.setFlow f c).checkList = s.checkList := rfl
@[simp] theorem State.setFlow_extents (f : FlowId) (c : FlowCtx) : (s.setFlow f c).extents = s.extents := rfl
@[simp] theorem State.setFlow_cells (f : FlowId) (c : FlowCtx) : (s.setFlow f c).cells = s.cells := rfl
@[simp] theorem State.setFlow_engine (f : FlowId) (c : FlowCtx) : (s.setFlow f c).engine = s.engine := rfl
@[simp] theorem State.setFlow_window (f : FlowId) (c : FlowCtx) : (s.setFlow f c).window = s.window := rfl
@[simp] theorem State.setFlow_supply (f : FlowId) (c : FlowCtx) : (s.setFlow f c).supply = s.supply := rfl
@[simp] theorem State.setFlow_ports (f : FlowId) (c : FlowCtx) : (s.setFlow f c).ports = s.ports := rfl
@[simp] theorem State.setFlow_mgmt (f : FlowId) (c : FlowCtx) : (s.setFlow f c).mgmt = s.mgmt := rfl
@[simp] theorem State.setFlow_alerts (f : FlowId) (c : FlowCtx) : (s.setFlow f c).alerts = s.alerts := rfl
@[simp] theorem State.setFlow_faults (f : FlowId) (c : FlowCtx) : (s.setFlow f c).faults = s.faults := rfl
@[simp] theorem State.setFlow_target (f : FlowId) (c : FlowCtx) (m : TargetId) : (s.setFlow f c).target m = s.target m := rfl
@[simp] theorem State.setFlow_route (f : FlowId) (c : FlowCtx) (m : RouteId) : (s.setFlow f c).route m = s.route m := rfl
@[simp] theorem State.setFlow_image (f : FlowId) (c : FlowCtx) (j : ImageId) : (s.setFlow f c).image j = s.image j := rfl
@[simp] theorem State.setFlow_cell (f : FlowId) (c : FlowCtx) (d : CellId) : (s.setFlow f c).cell d = s.cell d := rfl
@[simp] theorem State.setFlow_port (f : FlowId) (c : FlowCtx) (q : Port) : (s.setFlow f c).port q = s.port q := rfl

/-! mapFlow: changes only flows -/

@[simp] theorem State.mapFlow_pending (f : FlowId) (g : FlowCtx → FlowCtx) : (s.mapFlow f g).pending = s.pending := rfl
@[simp] theorem State.mapFlow_offers (f : FlowId) (g : FlowCtx → FlowCtx) : (s.mapFlow f g).offers = s.offers := rfl
@[simp] theorem State.mapFlow_outside (f : FlowId) (g : FlowCtx → FlowCtx) : (s.mapFlow f g).outside = s.outside := rfl
@[simp] theorem State.mapFlow_now (f : FlowId) (g : FlowCtx → FlowCtx) : (s.mapFlow f g).now = s.now := rfl
@[simp] theorem State.mapFlow_freeCount (f : FlowId) (g : FlowCtx → FlowCtx) : (s.mapFlow f g).freeCount = s.freeCount := rfl
@[simp] theorem State.mapFlow_resetHeld (f : FlowId) (g : FlowCtx → FlowCtx) : (s.mapFlow f g).resetHeld = s.resetHeld := rfl
@[simp] theorem State.mapFlow_strap (f : FlowId) (g : FlowCtx → FlowCtx) : (s.mapFlow f g).strap = s.strap := rfl
@[simp] theorem State.mapFlow_mode (f : FlowId) (g : FlowCtx → FlowCtx) : (s.mapFlow f g).mode = s.mode := rfl
@[simp] theorem State.mapFlow_defaultAction (f : FlowId) (g : FlowCtx → FlowCtx) : (s.mapFlow f g).defaultAction = s.defaultAction := rfl
@[simp] theorem State.mapFlow_routes (f : FlowId) (g : FlowCtx → FlowCtx) : (s.mapFlow f g).routes = s.routes := rfl
@[simp] theorem State.mapFlow_targets (f : FlowId) (g : FlowCtx → FlowCtx) : (s.mapFlow f g).targets = s.targets := rfl
@[simp] theorem State.mapFlow_images (f : FlowId) (g : FlowCtx → FlowCtx) : (s.mapFlow f g).images = s.images := rfl
@[simp] theorem State.mapFlow_checkList (f : FlowId) (g : FlowCtx → FlowCtx) : (s.mapFlow f g).checkList = s.checkList := rfl
@[simp] theorem State.mapFlow_extents (f : FlowId) (g : FlowCtx → FlowCtx) : (s.mapFlow f g).extents = s.extents := rfl
@[simp] theorem State.mapFlow_cells (f : FlowId) (g : FlowCtx → FlowCtx) : (s.mapFlow f g).cells = s.cells := rfl
@[simp] theorem State.mapFlow_engine (f : FlowId) (g : FlowCtx → FlowCtx) : (s.mapFlow f g).engine = s.engine := rfl
@[simp] theorem State.mapFlow_window (f : FlowId) (g : FlowCtx → FlowCtx) : (s.mapFlow f g).window = s.window := rfl
@[simp] theorem State.mapFlow_supply (f : FlowId) (g : FlowCtx → FlowCtx) : (s.mapFlow f g).supply = s.supply := rfl
@[simp] theorem State.mapFlow_ports (f : FlowId) (g : FlowCtx → FlowCtx) : (s.mapFlow f g).ports = s.ports := rfl
@[simp] theorem State.mapFlow_mgmt (f : FlowId) (g : FlowCtx → FlowCtx) : (s.mapFlow f g).mgmt = s.mgmt := rfl
@[simp] theorem State.mapFlow_alerts (f : FlowId) (g : FlowCtx → FlowCtx) : (s.mapFlow f g).alerts = s.alerts := rfl
@[simp] theorem State.mapFlow_faults (f : FlowId) (g : FlowCtx → FlowCtx) : (s.mapFlow f g).faults = s.faults := rfl
@[simp] theorem State.mapFlow_target (f : FlowId) (g : FlowCtx → FlowCtx) (m : TargetId) : (s.mapFlow f g).target m = s.target m := rfl
@[simp] theorem State.mapFlow_route (f : FlowId) (g : FlowCtx → FlowCtx) (m : RouteId) : (s.mapFlow f g).route m = s.route m := rfl
@[simp] theorem State.mapFlow_image (f : FlowId) (g : FlowCtx → FlowCtx) (j : ImageId) : (s.mapFlow f g).image j = s.image j := rfl
@[simp] theorem State.mapFlow_cell (f : FlowId) (g : FlowCtx → FlowCtx) (d : CellId) : (s.mapFlow f g).cell d = s.cell d := rfl
@[simp] theorem State.mapFlow_port (f : FlowId) (g : FlowCtx → FlowCtx) (q : Port) : (s.mapFlow f g).port q = s.port q := rfl

/-! setRecord: changes only flows -/

@[simp] theorem State.setRecord_pending (f : FlowId) (r : Option ParcelRecord) : (s.setRecord f r).pending = s.pending := rfl
@[simp] theorem State.setRecord_offers (f : FlowId) (r : Option ParcelRecord) : (s.setRecord f r).offers = s.offers := rfl
@[simp] theorem State.setRecord_outside (f : FlowId) (r : Option ParcelRecord) : (s.setRecord f r).outside = s.outside := rfl
@[simp] theorem State.setRecord_now (f : FlowId) (r : Option ParcelRecord) : (s.setRecord f r).now = s.now := rfl
@[simp] theorem State.setRecord_freeCount (f : FlowId) (r : Option ParcelRecord) : (s.setRecord f r).freeCount = s.freeCount := rfl
@[simp] theorem State.setRecord_resetHeld (f : FlowId) (r : Option ParcelRecord) : (s.setRecord f r).resetHeld = s.resetHeld := rfl
@[simp] theorem State.setRecord_strap (f : FlowId) (r : Option ParcelRecord) : (s.setRecord f r).strap = s.strap := rfl
@[simp] theorem State.setRecord_mode (f : FlowId) (r : Option ParcelRecord) : (s.setRecord f r).mode = s.mode := rfl
@[simp] theorem State.setRecord_defaultAction (f : FlowId) (r : Option ParcelRecord) : (s.setRecord f r).defaultAction = s.defaultAction := rfl
@[simp] theorem State.setRecord_routes (f : FlowId) (r : Option ParcelRecord) : (s.setRecord f r).routes = s.routes := rfl
@[simp] theorem State.setRecord_targets (f : FlowId) (r : Option ParcelRecord) : (s.setRecord f r).targets = s.targets := rfl
@[simp] theorem State.setRecord_images (f : FlowId) (r : Option ParcelRecord) : (s.setRecord f r).images = s.images := rfl
@[simp] theorem State.setRecord_checkList (f : FlowId) (r : Option ParcelRecord) : (s.setRecord f r).checkList = s.checkList := rfl
@[simp] theorem State.setRecord_extents (f : FlowId) (r : Option ParcelRecord) : (s.setRecord f r).extents = s.extents := rfl
@[simp] theorem State.setRecord_cells (f : FlowId) (r : Option ParcelRecord) : (s.setRecord f r).cells = s.cells := rfl
@[simp] theorem State.setRecord_engine (f : FlowId) (r : Option ParcelRecord) : (s.setRecord f r).engine = s.engine := rfl
@[simp] theorem State.setRecord_window (f : FlowId) (r : Option ParcelRecord) : (s.setRecord f r).window = s.window := rfl
@[simp] theorem State.setRecord_supply (f : FlowId) (r : Option ParcelRecord) : (s.setRecord f r).supply = s.supply := rfl
@[simp] theorem State.setRecord_ports (f : FlowId) (r : Option ParcelRecord) : (s.setRecord f r).ports = s.ports := rfl
@[simp] theorem State.setRecord_mgmt (f : FlowId) (r : Option ParcelRecord) : (s.setRecord f r).mgmt = s.mgmt := rfl
@[simp] theorem State.setRecord_alerts (f : FlowId) (r : Option ParcelRecord) : (s.setRecord f r).alerts = s.alerts := rfl
@[simp] theorem State.setRecord_faults (f : FlowId) (r : Option ParcelRecord) : (s.setRecord f r).faults = s.faults := rfl
@[simp] theorem State.setRecord_target (f : FlowId) (r : Option ParcelRecord) (m : TargetId) : (s.setRecord f r).target m = s.target m := rfl
@[simp] theorem State.setRecord_route (f : FlowId) (r : Option ParcelRecord) (m : RouteId) : (s.setRecord f r).route m = s.route m := rfl
@[simp] theorem State.setRecord_image (f : FlowId) (r : Option ParcelRecord) (j : ImageId) : (s.setRecord f r).image j = s.image j := rfl
@[simp] theorem State.setRecord_cell (f : FlowId) (r : Option ParcelRecord) (d : CellId) : (s.setRecord f r).cell d = s.cell d := rfl
@[simp] theorem State.setRecord_port (f : FlowId) (r : Option ParcelRecord) (q : Port) : (s.setRecord f r).port q = s.port q := rfl

/-! setVerdict: changes only flows -/

@[simp] theorem State.setVerdict_pending (f : FlowId) (v : Verdict) : (s.setVerdict f v).pending = s.pending := rfl
@[simp] theorem State.setVerdict_offers (f : FlowId) (v : Verdict) : (s.setVerdict f v).offers = s.offers := rfl
@[simp] theorem State.setVerdict_outside (f : FlowId) (v : Verdict) : (s.setVerdict f v).outside = s.outside := rfl
@[simp] theorem State.setVerdict_now (f : FlowId) (v : Verdict) : (s.setVerdict f v).now = s.now := rfl
@[simp] theorem State.setVerdict_freeCount (f : FlowId) (v : Verdict) : (s.setVerdict f v).freeCount = s.freeCount := rfl
@[simp] theorem State.setVerdict_resetHeld (f : FlowId) (v : Verdict) : (s.setVerdict f v).resetHeld = s.resetHeld := rfl
@[simp] theorem State.setVerdict_strap (f : FlowId) (v : Verdict) : (s.setVerdict f v).strap = s.strap := rfl
@[simp] theorem State.setVerdict_mode (f : FlowId) (v : Verdict) : (s.setVerdict f v).mode = s.mode := rfl
@[simp] theorem State.setVerdict_defaultAction (f : FlowId) (v : Verdict) : (s.setVerdict f v).defaultAction = s.defaultAction := rfl
@[simp] theorem State.setVerdict_routes (f : FlowId) (v : Verdict) : (s.setVerdict f v).routes = s.routes := rfl
@[simp] theorem State.setVerdict_targets (f : FlowId) (v : Verdict) : (s.setVerdict f v).targets = s.targets := rfl
@[simp] theorem State.setVerdict_images (f : FlowId) (v : Verdict) : (s.setVerdict f v).images = s.images := rfl
@[simp] theorem State.setVerdict_checkList (f : FlowId) (v : Verdict) : (s.setVerdict f v).checkList = s.checkList := rfl
@[simp] theorem State.setVerdict_extents (f : FlowId) (v : Verdict) : (s.setVerdict f v).extents = s.extents := rfl
@[simp] theorem State.setVerdict_cells (f : FlowId) (v : Verdict) : (s.setVerdict f v).cells = s.cells := rfl
@[simp] theorem State.setVerdict_engine (f : FlowId) (v : Verdict) : (s.setVerdict f v).engine = s.engine := rfl
@[simp] theorem State.setVerdict_window (f : FlowId) (v : Verdict) : (s.setVerdict f v).window = s.window := rfl
@[simp] theorem State.setVerdict_supply (f : FlowId) (v : Verdict) : (s.setVerdict f v).supply = s.supply := rfl
@[simp] theorem State.setVerdict_ports (f : FlowId) (v : Verdict) : (s.setVerdict f v).ports = s.ports := rfl
@[simp] theorem State.setVerdict_mgmt (f : FlowId) (v : Verdict) : (s.setVerdict f v).mgmt = s.mgmt := rfl
@[simp] theorem State.setVerdict_alerts (f : FlowId) (v : Verdict) : (s.setVerdict f v).alerts = s.alerts := rfl
@[simp] theorem State.setVerdict_faults (f : FlowId) (v : Verdict) : (s.setVerdict f v).faults = s.faults := rfl
@[simp] theorem State.setVerdict_target (f : FlowId) (v : Verdict) (m : TargetId) : (s.setVerdict f v).target m = s.target m := rfl
@[simp] theorem State.setVerdict_route (f : FlowId) (v : Verdict) (m : RouteId) : (s.setVerdict f v).route m = s.route m := rfl
@[simp] theorem State.setVerdict_image (f : FlowId) (v : Verdict) (j : ImageId) : (s.setVerdict f v).image j = s.image j := rfl
@[simp] theorem State.setVerdict_cell (f : FlowId) (v : Verdict) (d : CellId) : (s.setVerdict f v).cell d = s.cell d := rfl
@[simp] theorem State.setVerdict_port (f : FlowId) (v : Verdict) (q : Port) : (s.setVerdict f v).port q = s.port q := rfl

/-! beginPending: changes only flows -/

@[simp] theorem State.beginPending_pending (f : FlowId) (k : PendingKind) : (s.beginPending f k).pending = s.pending := rfl
@[simp] theorem State.beginPending_offers (f : FlowId) (k : PendingKind) : (s.beginPending f k).offers = s.offers := rfl
@[simp] theorem State.beginPending_outside (f : FlowId) (k : PendingKind) : (s.beginPending f k).outside = s.outside := rfl
@[simp] theorem State.beginPending_now (f : FlowId) (k : PendingKind) : (s.beginPending f k).now = s.now := rfl
@[simp] theorem State.beginPending_freeCount (f : FlowId) (k : PendingKind) : (s.beginPending f k).freeCount = s.freeCount := rfl
@[simp] theorem State.beginPending_resetHeld (f : FlowId) (k : PendingKind) : (s.beginPending f k).resetHeld = s.resetHeld := rfl
@[simp] theorem State.beginPending_strap (f : FlowId) (k : PendingKind) : (s.beginPending f k).strap = s.strap := rfl
@[simp] theorem State.beginPending_mode (f : FlowId) (k : PendingKind) : (s.beginPending f k).mode = s.mode := rfl
@[simp] theorem State.beginPending_defaultAction (f : FlowId) (k : PendingKind) : (s.beginPending f k).defaultAction = s.defaultAction := rfl
@[simp] theorem State.beginPending_routes (f : FlowId) (k : PendingKind) : (s.beginPending f k).routes = s.routes := rfl
@[simp] theorem State.beginPending_targets (f : FlowId) (k : PendingKind) : (s.beginPending f k).targets = s.targets := rfl
@[simp] theorem State.beginPending_images (f : FlowId) (k : PendingKind) : (s.beginPending f k).images = s.images := rfl
@[simp] theorem State.beginPending_checkList (f : FlowId) (k : PendingKind) : (s.beginPending f k).checkList = s.checkList := rfl
@[simp] theorem State.beginPending_extents (f : FlowId) (k : PendingKind) : (s.beginPending f k).extents = s.extents := rfl
@[simp] theorem State.beginPending_cells (f : FlowId) (k : PendingKind) : (s.beginPending f k).cells = s.cells := rfl
@[simp] theorem State.beginPending_engine (f : FlowId) (k : PendingKind) : (s.beginPending f k).engine = s.engine := rfl
@[simp] theorem State.beginPending_window (f : FlowId) (k : PendingKind) : (s.beginPending f k).window = s.window := rfl
@[simp] theorem State.beginPending_supply (f : FlowId) (k : PendingKind) : (s.beginPending f k).supply = s.supply := rfl
@[simp] theorem State.beginPending_ports (f : FlowId) (k : PendingKind) : (s.beginPending f k).ports = s.ports := rfl
@[simp] theorem State.beginPending_mgmt (f : FlowId) (k : PendingKind) : (s.beginPending f k).mgmt = s.mgmt := rfl
@[simp] theorem State.beginPending_alerts (f : FlowId) (k : PendingKind) : (s.beginPending f k).alerts = s.alerts := rfl
@[simp] theorem State.beginPending_faults (f : FlowId) (k : PendingKind) : (s.beginPending f k).faults = s.faults := rfl
@[simp] theorem State.beginPending_target (f : FlowId) (k : PendingKind) (m : TargetId) : (s.beginPending f k).target m = s.target m := rfl
@[simp] theorem State.beginPending_route (f : FlowId) (k : PendingKind) (m : RouteId) : (s.beginPending f k).route m = s.route m := rfl
@[simp] theorem State.beginPending_image (f : FlowId) (k : PendingKind) (j : ImageId) : (s.beginPending f k).image j = s.image j := rfl
@[simp] theorem State.beginPending_cell (f : FlowId) (k : PendingKind) (d : CellId) : (s.beginPending f k).cell d = s.cell d := rfl
@[simp] theorem State.beginPending_port (f : FlowId) (k : PendingKind) (q : Port) : (s.beginPending f k).port q = s.port q := rfl

/-! clearPending: changes only flows -/

@[simp] theorem State.clearPending_pending (f : FlowId) : (s.clearPending f).pending = s.pending := rfl
@[simp] theorem State.clearPending_offers (f : FlowId) : (s.clearPending f).offers = s.offers := rfl
@[simp] theorem State.clearPending_outside (f : FlowId) : (s.clearPending f).outside = s.outside := rfl
@[simp] theorem State.clearPending_now (f : FlowId) : (s.clearPending f).now = s.now := rfl
@[simp] theorem State.clearPending_freeCount (f : FlowId) : (s.clearPending f).freeCount = s.freeCount := rfl
@[simp] theorem State.clearPending_resetHeld (f : FlowId) : (s.clearPending f).resetHeld = s.resetHeld := rfl
@[simp] theorem State.clearPending_strap (f : FlowId) : (s.clearPending f).strap = s.strap := rfl
@[simp] theorem State.clearPending_mode (f : FlowId) : (s.clearPending f).mode = s.mode := rfl
@[simp] theorem State.clearPending_defaultAction (f : FlowId) : (s.clearPending f).defaultAction = s.defaultAction := rfl
@[simp] theorem State.clearPending_routes (f : FlowId) : (s.clearPending f).routes = s.routes := rfl
@[simp] theorem State.clearPending_targets (f : FlowId) : (s.clearPending f).targets = s.targets := rfl
@[simp] theorem State.clearPending_images (f : FlowId) : (s.clearPending f).images = s.images := rfl
@[simp] theorem State.clearPending_checkList (f : FlowId) : (s.clearPending f).checkList = s.checkList := rfl
@[simp] theorem State.clearPending_extents (f : FlowId) : (s.clearPending f).extents = s.extents := rfl
@[simp] theorem State.clearPending_cells (f : FlowId) : (s.clearPending f).cells = s.cells := rfl
@[simp] theorem State.clearPending_engine (f : FlowId) : (s.clearPending f).engine = s.engine := rfl
@[simp] theorem State.clearPending_window (f : FlowId) : (s.clearPending f).window = s.window := rfl
@[simp] theorem State.clearPending_supply (f : FlowId) : (s.clearPending f).supply = s.supply := rfl
@[simp] theorem State.clearPending_ports (f : FlowId) : (s.clearPending f).ports = s.ports := rfl
@[simp] theorem State.clearPending_mgmt (f : FlowId) : (s.clearPending f).mgmt = s.mgmt := rfl
@[simp] theorem State.clearPending_alerts (f : FlowId) : (s.clearPending f).alerts = s.alerts := rfl
@[simp] theorem State.clearPending_faults (f : FlowId) : (s.clearPending f).faults = s.faults := rfl
@[simp] theorem State.clearPending_target (f : FlowId) (m : TargetId) : (s.clearPending f).target m = s.target m := rfl
@[simp] theorem State.clearPending_route (f : FlowId) (m : RouteId) : (s.clearPending f).route m = s.route m := rfl
@[simp] theorem State.clearPending_image (f : FlowId) (j : ImageId) : (s.clearPending f).image j = s.image j := rfl
@[simp] theorem State.clearPending_cell (f : FlowId) (d : CellId) : (s.clearPending f).cell d = s.cell d := rfl
@[simp] theorem State.clearPending_port (f : FlowId) (q : Port) : (s.clearPending f).port q = s.port q := rfl

/-! setRegion: changes only flows -/

@[simp] theorem State.setRegion_pending (f : FlowId) (r : Nat) (k : RegionState) : (s.setRegion f r k).pending = s.pending := rfl
@[simp] theorem State.setRegion_offers (f : FlowId) (r : Nat) (k : RegionState) : (s.setRegion f r k).offers = s.offers := rfl
@[simp] theorem State.setRegion_outside (f : FlowId) (r : Nat) (k : RegionState) : (s.setRegion f r k).outside = s.outside := rfl
@[simp] theorem State.setRegion_now (f : FlowId) (r : Nat) (k : RegionState) : (s.setRegion f r k).now = s.now := rfl
@[simp] theorem State.setRegion_freeCount (f : FlowId) (r : Nat) (k : RegionState) : (s.setRegion f r k).freeCount = s.freeCount := rfl
@[simp] theorem State.setRegion_resetHeld (f : FlowId) (r : Nat) (k : RegionState) : (s.setRegion f r k).resetHeld = s.resetHeld := rfl
@[simp] theorem State.setRegion_strap (f : FlowId) (r : Nat) (k : RegionState) : (s.setRegion f r k).strap = s.strap := rfl
@[simp] theorem State.setRegion_mode (f : FlowId) (r : Nat) (k : RegionState) : (s.setRegion f r k).mode = s.mode := rfl
@[simp] theorem State.setRegion_defaultAction (f : FlowId) (r : Nat) (k : RegionState) : (s.setRegion f r k).defaultAction = s.defaultAction := rfl
@[simp] theorem State.setRegion_routes (f : FlowId) (r : Nat) (k : RegionState) : (s.setRegion f r k).routes = s.routes := rfl
@[simp] theorem State.setRegion_targets (f : FlowId) (r : Nat) (k : RegionState) : (s.setRegion f r k).targets = s.targets := rfl
@[simp] theorem State.setRegion_images (f : FlowId) (r : Nat) (k : RegionState) : (s.setRegion f r k).images = s.images := rfl
@[simp] theorem State.setRegion_checkList (f : FlowId) (r : Nat) (k : RegionState) : (s.setRegion f r k).checkList = s.checkList := rfl
@[simp] theorem State.setRegion_extents (f : FlowId) (r : Nat) (k : RegionState) : (s.setRegion f r k).extents = s.extents := rfl
@[simp] theorem State.setRegion_cells (f : FlowId) (r : Nat) (k : RegionState) : (s.setRegion f r k).cells = s.cells := rfl
@[simp] theorem State.setRegion_engine (f : FlowId) (r : Nat) (k : RegionState) : (s.setRegion f r k).engine = s.engine := rfl
@[simp] theorem State.setRegion_window (f : FlowId) (r : Nat) (k : RegionState) : (s.setRegion f r k).window = s.window := rfl
@[simp] theorem State.setRegion_supply (f : FlowId) (r : Nat) (k : RegionState) : (s.setRegion f r k).supply = s.supply := rfl
@[simp] theorem State.setRegion_ports (f : FlowId) (r : Nat) (k : RegionState) : (s.setRegion f r k).ports = s.ports := rfl
@[simp] theorem State.setRegion_mgmt (f : FlowId) (r : Nat) (k : RegionState) : (s.setRegion f r k).mgmt = s.mgmt := rfl
@[simp] theorem State.setRegion_alerts (f : FlowId) (r : Nat) (k : RegionState) : (s.setRegion f r k).alerts = s.alerts := rfl
@[simp] theorem State.setRegion_faults (f : FlowId) (r : Nat) (k : RegionState) : (s.setRegion f r k).faults = s.faults := rfl
@[simp] theorem State.setRegion_target (f : FlowId) (r : Nat) (k : RegionState) (m : TargetId) : (s.setRegion f r k).target m = s.target m := rfl
@[simp] theorem State.setRegion_route (f : FlowId) (r : Nat) (k : RegionState) (m : RouteId) : (s.setRegion f r k).route m = s.route m := rfl
@[simp] theorem State.setRegion_image (f : FlowId) (r : Nat) (k : RegionState) (j : ImageId) : (s.setRegion f r k).image j = s.image j := rfl
@[simp] theorem State.setRegion_cell (f : FlowId) (r : Nat) (k : RegionState) (d : CellId) : (s.setRegion f r k).cell d = s.cell d := rfl
@[simp] theorem State.setRegion_port (f : FlowId) (r : Nat) (k : RegionState) (q : Port) : (s.setRegion f r k).port q = s.port q := rfl

/-! setFlowState: changes only flows -/

@[simp] theorem State.setFlowState_pending (f : FlowId) (k : FlowState) : (s.setFlowState f k).pending = s.pending := rfl
@[simp] theorem State.setFlowState_offers (f : FlowId) (k : FlowState) : (s.setFlowState f k).offers = s.offers := rfl
@[simp] theorem State.setFlowState_outside (f : FlowId) (k : FlowState) : (s.setFlowState f k).outside = s.outside := rfl
@[simp] theorem State.setFlowState_now (f : FlowId) (k : FlowState) : (s.setFlowState f k).now = s.now := rfl
@[simp] theorem State.setFlowState_freeCount (f : FlowId) (k : FlowState) : (s.setFlowState f k).freeCount = s.freeCount := rfl
@[simp] theorem State.setFlowState_resetHeld (f : FlowId) (k : FlowState) : (s.setFlowState f k).resetHeld = s.resetHeld := rfl
@[simp] theorem State.setFlowState_strap (f : FlowId) (k : FlowState) : (s.setFlowState f k).strap = s.strap := rfl
@[simp] theorem State.setFlowState_mode (f : FlowId) (k : FlowState) : (s.setFlowState f k).mode = s.mode := rfl
@[simp] theorem State.setFlowState_defaultAction (f : FlowId) (k : FlowState) : (s.setFlowState f k).defaultAction = s.defaultAction := rfl
@[simp] theorem State.setFlowState_routes (f : FlowId) (k : FlowState) : (s.setFlowState f k).routes = s.routes := rfl
@[simp] theorem State.setFlowState_targets (f : FlowId) (k : FlowState) : (s.setFlowState f k).targets = s.targets := rfl
@[simp] theorem State.setFlowState_images (f : FlowId) (k : FlowState) : (s.setFlowState f k).images = s.images := rfl
@[simp] theorem State.setFlowState_checkList (f : FlowId) (k : FlowState) : (s.setFlowState f k).checkList = s.checkList := rfl
@[simp] theorem State.setFlowState_extents (f : FlowId) (k : FlowState) : (s.setFlowState f k).extents = s.extents := rfl
@[simp] theorem State.setFlowState_cells (f : FlowId) (k : FlowState) : (s.setFlowState f k).cells = s.cells := rfl
@[simp] theorem State.setFlowState_engine (f : FlowId) (k : FlowState) : (s.setFlowState f k).engine = s.engine := rfl
@[simp] theorem State.setFlowState_window (f : FlowId) (k : FlowState) : (s.setFlowState f k).window = s.window := rfl
@[simp] theorem State.setFlowState_supply (f : FlowId) (k : FlowState) : (s.setFlowState f k).supply = s.supply := rfl
@[simp] theorem State.setFlowState_ports (f : FlowId) (k : FlowState) : (s.setFlowState f k).ports = s.ports := rfl
@[simp] theorem State.setFlowState_mgmt (f : FlowId) (k : FlowState) : (s.setFlowState f k).mgmt = s.mgmt := rfl
@[simp] theorem State.setFlowState_alerts (f : FlowId) (k : FlowState) : (s.setFlowState f k).alerts = s.alerts := rfl
@[simp] theorem State.setFlowState_faults (f : FlowId) (k : FlowState) : (s.setFlowState f k).faults = s.faults := rfl
@[simp] theorem State.setFlowState_target (f : FlowId) (k : FlowState) (m : TargetId) : (s.setFlowState f k).target m = s.target m := rfl
@[simp] theorem State.setFlowState_route (f : FlowId) (k : FlowState) (m : RouteId) : (s.setFlowState f k).route m = s.route m := rfl
@[simp] theorem State.setFlowState_image (f : FlowId) (k : FlowState) (j : ImageId) : (s.setFlowState f k).image j = s.image j := rfl
@[simp] theorem State.setFlowState_cell (f : FlowId) (k : FlowState) (d : CellId) : (s.setFlowState f k).cell d = s.cell d := rfl
@[simp] theorem State.setFlowState_port (f : FlowId) (k : FlowState) (q : Port) : (s.setFlowState f k).port q = s.port q := rfl

/-! closeToIdle: changes only flows -/

@[simp] theorem State.closeToIdle_pending (f : FlowId) : (s.closeToIdle f).pending = s.pending := rfl
@[simp] theorem State.closeToIdle_offers (f : FlowId) : (s.closeToIdle f).offers = s.offers := rfl
@[simp] theorem State.closeToIdle_outside (f : FlowId) : (s.closeToIdle f).outside = s.outside := rfl
@[simp] theorem State.closeToIdle_now (f : FlowId) : (s.closeToIdle f).now = s.now := rfl
@[simp] theorem State.closeToIdle_freeCount (f : FlowId) : (s.closeToIdle f).freeCount = s.freeCount := rfl
@[simp] theorem State.closeToIdle_resetHeld (f : FlowId) : (s.closeToIdle f).resetHeld = s.resetHeld := rfl
@[simp] theorem State.closeToIdle_strap (f : FlowId) : (s.closeToIdle f).strap = s.strap := rfl
@[simp] theorem State.closeToIdle_mode (f : FlowId) : (s.closeToIdle f).mode = s.mode := rfl
@[simp] theorem State.closeToIdle_defaultAction (f : FlowId) : (s.closeToIdle f).defaultAction = s.defaultAction := rfl
@[simp] theorem State.closeToIdle_routes (f : FlowId) : (s.closeToIdle f).routes = s.routes := rfl
@[simp] theorem State.closeToIdle_targets (f : FlowId) : (s.closeToIdle f).targets = s.targets := rfl
@[simp] theorem State.closeToIdle_images (f : FlowId) : (s.closeToIdle f).images = s.images := rfl
@[simp] theorem State.closeToIdle_checkList (f : FlowId) : (s.closeToIdle f).checkList = s.checkList := rfl
@[simp] theorem State.closeToIdle_extents (f : FlowId) : (s.closeToIdle f).extents = s.extents := rfl
@[simp] theorem State.closeToIdle_cells (f : FlowId) : (s.closeToIdle f).cells = s.cells := rfl
@[simp] theorem State.closeToIdle_engine (f : FlowId) : (s.closeToIdle f).engine = s.engine := rfl
@[simp] theorem State.closeToIdle_window (f : FlowId) : (s.closeToIdle f).window = s.window := rfl
@[simp] theorem State.closeToIdle_supply (f : FlowId) : (s.closeToIdle f).supply = s.supply := rfl
@[simp] theorem State.closeToIdle_ports (f : FlowId) : (s.closeToIdle f).ports = s.ports := rfl
@[simp] theorem State.closeToIdle_mgmt (f : FlowId) : (s.closeToIdle f).mgmt = s.mgmt := rfl
@[simp] theorem State.closeToIdle_alerts (f : FlowId) : (s.closeToIdle f).alerts = s.alerts := rfl
@[simp] theorem State.closeToIdle_faults (f : FlowId) : (s.closeToIdle f).faults = s.faults := rfl
@[simp] theorem State.closeToIdle_target (f : FlowId) (m : TargetId) : (s.closeToIdle f).target m = s.target m := rfl
@[simp] theorem State.closeToIdle_route (f : FlowId) (m : RouteId) : (s.closeToIdle f).route m = s.route m := rfl
@[simp] theorem State.closeToIdle_image (f : FlowId) (j : ImageId) : (s.closeToIdle f).image j = s.image j := rfl
@[simp] theorem State.closeToIdle_cell (f : FlowId) (d : CellId) : (s.closeToIdle f).cell d = s.cell d := rfl
@[simp] theorem State.closeToIdle_port (f : FlowId) (q : Port) : (s.closeToIdle f).port q = s.port q := rfl

/-! opened: changes only flows -/

@[simp] theorem State.opened_pending (f : FlowId) (o : OpenRegion) : (s.opened f o).pending = s.pending := rfl
@[simp] theorem State.opened_offers (f : FlowId) (o : OpenRegion) : (s.opened f o).offers = s.offers := rfl
@[simp] theorem State.opened_outside (f : FlowId) (o : OpenRegion) : (s.opened f o).outside = s.outside := rfl
@[simp] theorem State.opened_now (f : FlowId) (o : OpenRegion) : (s.opened f o).now = s.now := rfl
@[simp] theorem State.opened_freeCount (f : FlowId) (o : OpenRegion) : (s.opened f o).freeCount = s.freeCount := rfl
@[simp] theorem State.opened_resetHeld (f : FlowId) (o : OpenRegion) : (s.opened f o).resetHeld = s.resetHeld := rfl
@[simp] theorem State.opened_strap (f : FlowId) (o : OpenRegion) : (s.opened f o).strap = s.strap := rfl
@[simp] theorem State.opened_mode (f : FlowId) (o : OpenRegion) : (s.opened f o).mode = s.mode := rfl
@[simp] theorem State.opened_defaultAction (f : FlowId) (o : OpenRegion) : (s.opened f o).defaultAction = s.defaultAction := rfl
@[simp] theorem State.opened_routes (f : FlowId) (o : OpenRegion) : (s.opened f o).routes = s.routes := rfl
@[simp] theorem State.opened_targets (f : FlowId) (o : OpenRegion) : (s.opened f o).targets = s.targets := rfl
@[simp] theorem State.opened_images (f : FlowId) (o : OpenRegion) : (s.opened f o).images = s.images := rfl
@[simp] theorem State.opened_checkList (f : FlowId) (o : OpenRegion) : (s.opened f o).checkList = s.checkList := rfl
@[simp] theorem State.opened_extents (f : FlowId) (o : OpenRegion) : (s.opened f o).extents = s.extents := rfl
@[simp] theorem State.opened_cells (f : FlowId) (o : OpenRegion) : (s.opened f o).cells = s.cells := rfl
@[simp] theorem State.opened_engine (f : FlowId) (o : OpenRegion) : (s.opened f o).engine = s.engine := rfl
@[simp] theorem State.opened_window (f : FlowId) (o : OpenRegion) : (s.opened f o).window = s.window := rfl
@[simp] theorem State.opened_supply (f : FlowId) (o : OpenRegion) : (s.opened f o).supply = s.supply := rfl
@[simp] theorem State.opened_ports (f : FlowId) (o : OpenRegion) : (s.opened f o).ports = s.ports := rfl
@[simp] theorem State.opened_mgmt (f : FlowId) (o : OpenRegion) : (s.opened f o).mgmt = s.mgmt := rfl
@[simp] theorem State.opened_alerts (f : FlowId) (o : OpenRegion) : (s.opened f o).alerts = s.alerts := rfl
@[simp] theorem State.opened_faults (f : FlowId) (o : OpenRegion) : (s.opened f o).faults = s.faults := rfl
@[simp] theorem State.opened_target (f : FlowId) (o : OpenRegion) (m : TargetId) : (s.opened f o).target m = s.target m := rfl
@[simp] theorem State.opened_route (f : FlowId) (o : OpenRegion) (m : RouteId) : (s.opened f o).route m = s.route m := rfl
@[simp] theorem State.opened_image (f : FlowId) (o : OpenRegion) (j : ImageId) : (s.opened f o).image j = s.image j := rfl
@[simp] theorem State.opened_cell (f : FlowId) (o : OpenRegion) (d : CellId) : (s.opened f o).cell d = s.cell d := rfl
@[simp] theorem State.opened_port (f : FlowId) (o : OpenRegion) (q : Port) : (s.opened f o).port q = s.port q := rfl

/-! setTarget: changes only targets -/

@[simp] theorem State.setTarget_pending (n : TargetId) (e : TargetEntry) : (s.setTarget n e).pending = s.pending := rfl
@[simp] theorem State.setTarget_offers (n : TargetId) (e : TargetEntry) : (s.setTarget n e).offers = s.offers := rfl
@[simp] theorem State.setTarget_outside (n : TargetId) (e : TargetEntry) : (s.setTarget n e).outside = s.outside := rfl
@[simp] theorem State.setTarget_now (n : TargetId) (e : TargetEntry) : (s.setTarget n e).now = s.now := rfl
@[simp] theorem State.setTarget_freeCount (n : TargetId) (e : TargetEntry) : (s.setTarget n e).freeCount = s.freeCount := rfl
@[simp] theorem State.setTarget_resetHeld (n : TargetId) (e : TargetEntry) : (s.setTarget n e).resetHeld = s.resetHeld := rfl
@[simp] theorem State.setTarget_strap (n : TargetId) (e : TargetEntry) : (s.setTarget n e).strap = s.strap := rfl
@[simp] theorem State.setTarget_mode (n : TargetId) (e : TargetEntry) : (s.setTarget n e).mode = s.mode := rfl
@[simp] theorem State.setTarget_defaultAction (n : TargetId) (e : TargetEntry) : (s.setTarget n e).defaultAction = s.defaultAction := rfl
@[simp] theorem State.setTarget_routes (n : TargetId) (e : TargetEntry) : (s.setTarget n e).routes = s.routes := rfl
@[simp] theorem State.setTarget_images (n : TargetId) (e : TargetEntry) : (s.setTarget n e).images = s.images := rfl
@[simp] theorem State.setTarget_checkList (n : TargetId) (e : TargetEntry) : (s.setTarget n e).checkList = s.checkList := rfl
@[simp] theorem State.setTarget_extents (n : TargetId) (e : TargetEntry) : (s.setTarget n e).extents = s.extents := rfl
@[simp] theorem State.setTarget_flows (n : TargetId) (e : TargetEntry) : (s.setTarget n e).flows = s.flows := rfl
@[simp] theorem State.setTarget_cells (n : TargetId) (e : TargetEntry) : (s.setTarget n e).cells = s.cells := rfl
@[simp] theorem State.setTarget_engine (n : TargetId) (e : TargetEntry) : (s.setTarget n e).engine = s.engine := rfl
@[simp] theorem State.setTarget_window (n : TargetId) (e : TargetEntry) : (s.setTarget n e).window = s.window := rfl
@[simp] theorem State.setTarget_supply (n : TargetId) (e : TargetEntry) : (s.setTarget n e).supply = s.supply := rfl
@[simp] theorem State.setTarget_ports (n : TargetId) (e : TargetEntry) : (s.setTarget n e).ports = s.ports := rfl
@[simp] theorem State.setTarget_mgmt (n : TargetId) (e : TargetEntry) : (s.setTarget n e).mgmt = s.mgmt := rfl
@[simp] theorem State.setTarget_alerts (n : TargetId) (e : TargetEntry) : (s.setTarget n e).alerts = s.alerts := rfl
@[simp] theorem State.setTarget_faults (n : TargetId) (e : TargetEntry) : (s.setTarget n e).faults = s.faults := rfl
@[simp] theorem State.setTarget_flow (n : TargetId) (e : TargetEntry) (g : FlowId) : (s.setTarget n e).flow g = s.flow g := rfl
@[simp] theorem State.setTarget_route (n : TargetId) (e : TargetEntry) (m : RouteId) : (s.setTarget n e).route m = s.route m := rfl
@[simp] theorem State.setTarget_image (n : TargetId) (e : TargetEntry) (j : ImageId) : (s.setTarget n e).image j = s.image j := rfl
@[simp] theorem State.setTarget_cell (n : TargetId) (e : TargetEntry) (d : CellId) : (s.setTarget n e).cell d = s.cell d := rfl
@[simp] theorem State.setTarget_port (n : TargetId) (e : TargetEntry) (q : Port) : (s.setTarget n e).port q = s.port q := rfl

/-! setTracker: changes only targets -/

@[simp] theorem State.setTracker_pending (n : TargetId) (k : Tracker) : (s.setTracker n k).pending = s.pending := rfl
@[simp] theorem State.setTracker_offers (n : TargetId) (k : Tracker) : (s.setTracker n k).offers = s.offers := rfl
@[simp] theorem State.setTracker_outside (n : TargetId) (k : Tracker) : (s.setTracker n k).outside = s.outside := rfl
@[simp] theorem State.setTracker_now (n : TargetId) (k : Tracker) : (s.setTracker n k).now = s.now := rfl
@[simp] theorem State.setTracker_freeCount (n : TargetId) (k : Tracker) : (s.setTracker n k).freeCount = s.freeCount := rfl
@[simp] theorem State.setTracker_resetHeld (n : TargetId) (k : Tracker) : (s.setTracker n k).resetHeld = s.resetHeld := rfl
@[simp] theorem State.setTracker_strap (n : TargetId) (k : Tracker) : (s.setTracker n k).strap = s.strap := rfl
@[simp] theorem State.setTracker_mode (n : TargetId) (k : Tracker) : (s.setTracker n k).mode = s.mode := rfl
@[simp] theorem State.setTracker_defaultAction (n : TargetId) (k : Tracker) : (s.setTracker n k).defaultAction = s.defaultAction := rfl
@[simp] theorem State.setTracker_routes (n : TargetId) (k : Tracker) : (s.setTracker n k).routes = s.routes := rfl
@[simp] theorem State.setTracker_images (n : TargetId) (k : Tracker) : (s.setTracker n k).images = s.images := rfl
@[simp] theorem State.setTracker_checkList (n : TargetId) (k : Tracker) : (s.setTracker n k).checkList = s.checkList := rfl
@[simp] theorem State.setTracker_extents (n : TargetId) (k : Tracker) : (s.setTracker n k).extents = s.extents := rfl
@[simp] theorem State.setTracker_flows (n : TargetId) (k : Tracker) : (s.setTracker n k).flows = s.flows := rfl
@[simp] theorem State.setTracker_cells (n : TargetId) (k : Tracker) : (s.setTracker n k).cells = s.cells := rfl
@[simp] theorem State.setTracker_engine (n : TargetId) (k : Tracker) : (s.setTracker n k).engine = s.engine := rfl
@[simp] theorem State.setTracker_window (n : TargetId) (k : Tracker) : (s.setTracker n k).window = s.window := rfl
@[simp] theorem State.setTracker_supply (n : TargetId) (k : Tracker) : (s.setTracker n k).supply = s.supply := rfl
@[simp] theorem State.setTracker_ports (n : TargetId) (k : Tracker) : (s.setTracker n k).ports = s.ports := rfl
@[simp] theorem State.setTracker_mgmt (n : TargetId) (k : Tracker) : (s.setTracker n k).mgmt = s.mgmt := rfl
@[simp] theorem State.setTracker_alerts (n : TargetId) (k : Tracker) : (s.setTracker n k).alerts = s.alerts := rfl
@[simp] theorem State.setTracker_faults (n : TargetId) (k : Tracker) : (s.setTracker n k).faults = s.faults := rfl
@[simp] theorem State.setTracker_flow (n : TargetId) (k : Tracker) (g : FlowId) : (s.setTracker n k).flow g = s.flow g := rfl
@[simp] theorem State.setTracker_route (n : TargetId) (k : Tracker) (m : RouteId) : (s.setTracker n k).route m = s.route m := rfl
@[simp] theorem State.setTracker_image (n : TargetId) (k : Tracker) (j : ImageId) : (s.setTracker n k).image j = s.image j := rfl
@[simp] theorem State.setTracker_cell (n : TargetId) (k : Tracker) (d : CellId) : (s.setTracker n k).cell d = s.cell d := rfl
@[simp] theorem State.setTracker_port (n : TargetId) (k : Tracker) (q : Port) : (s.setTracker n k).port q = s.port q := rfl

/-! setRoute: changes only routes -/

@[simp] theorem State.setRoute_pending (n : RouteId) (e : RouteEntry) : (s.setRoute n e).pending = s.pending := rfl
@[simp] theorem State.setRoute_offers (n : RouteId) (e : RouteEntry) : (s.setRoute n e).offers = s.offers := rfl
@[simp] theorem State.setRoute_outside (n : RouteId) (e : RouteEntry) : (s.setRoute n e).outside = s.outside := rfl
@[simp] theorem State.setRoute_now (n : RouteId) (e : RouteEntry) : (s.setRoute n e).now = s.now := rfl
@[simp] theorem State.setRoute_freeCount (n : RouteId) (e : RouteEntry) : (s.setRoute n e).freeCount = s.freeCount := rfl
@[simp] theorem State.setRoute_resetHeld (n : RouteId) (e : RouteEntry) : (s.setRoute n e).resetHeld = s.resetHeld := rfl
@[simp] theorem State.setRoute_strap (n : RouteId) (e : RouteEntry) : (s.setRoute n e).strap = s.strap := rfl
@[simp] theorem State.setRoute_mode (n : RouteId) (e : RouteEntry) : (s.setRoute n e).mode = s.mode := rfl
@[simp] theorem State.setRoute_defaultAction (n : RouteId) (e : RouteEntry) : (s.setRoute n e).defaultAction = s.defaultAction := rfl
@[simp] theorem State.setRoute_targets (n : RouteId) (e : RouteEntry) : (s.setRoute n e).targets = s.targets := rfl
@[simp] theorem State.setRoute_images (n : RouteId) (e : RouteEntry) : (s.setRoute n e).images = s.images := rfl
@[simp] theorem State.setRoute_checkList (n : RouteId) (e : RouteEntry) : (s.setRoute n e).checkList = s.checkList := rfl
@[simp] theorem State.setRoute_extents (n : RouteId) (e : RouteEntry) : (s.setRoute n e).extents = s.extents := rfl
@[simp] theorem State.setRoute_flows (n : RouteId) (e : RouteEntry) : (s.setRoute n e).flows = s.flows := rfl
@[simp] theorem State.setRoute_cells (n : RouteId) (e : RouteEntry) : (s.setRoute n e).cells = s.cells := rfl
@[simp] theorem State.setRoute_engine (n : RouteId) (e : RouteEntry) : (s.setRoute n e).engine = s.engine := rfl
@[simp] theorem State.setRoute_window (n : RouteId) (e : RouteEntry) : (s.setRoute n e).window = s.window := rfl
@[simp] theorem State.setRoute_supply (n : RouteId) (e : RouteEntry) : (s.setRoute n e).supply = s.supply := rfl
@[simp] theorem State.setRoute_ports (n : RouteId) (e : RouteEntry) : (s.setRoute n e).ports = s.ports := rfl
@[simp] theorem State.setRoute_mgmt (n : RouteId) (e : RouteEntry) : (s.setRoute n e).mgmt = s.mgmt := rfl
@[simp] theorem State.setRoute_alerts (n : RouteId) (e : RouteEntry) : (s.setRoute n e).alerts = s.alerts := rfl
@[simp] theorem State.setRoute_faults (n : RouteId) (e : RouteEntry) : (s.setRoute n e).faults = s.faults := rfl
@[simp] theorem State.setRoute_flow (n : RouteId) (e : RouteEntry) (g : FlowId) : (s.setRoute n e).flow g = s.flow g := rfl
@[simp] theorem State.setRoute_target (n : RouteId) (e : RouteEntry) (m : TargetId) : (s.setRoute n e).target m = s.target m := rfl
@[simp] theorem State.setRoute_image (n : RouteId) (e : RouteEntry) (j : ImageId) : (s.setRoute n e).image j = s.image j := rfl
@[simp] theorem State.setRoute_cell (n : RouteId) (e : RouteEntry) (d : CellId) : (s.setRoute n e).cell d = s.cell d := rfl
@[simp] theorem State.setRoute_port (n : RouteId) (e : RouteEntry) (q : Port) : (s.setRoute n e).port q = s.port q := rfl

/-! setImage: changes only images -/

@[simp] theorem State.setImage_pending (i : ImageId) (r : ImageRecord) : (s.setImage i r).pending = s.pending := rfl
@[simp] theorem State.setImage_offers (i : ImageId) (r : ImageRecord) : (s.setImage i r).offers = s.offers := rfl
@[simp] theorem State.setImage_outside (i : ImageId) (r : ImageRecord) : (s.setImage i r).outside = s.outside := rfl
@[simp] theorem State.setImage_now (i : ImageId) (r : ImageRecord) : (s.setImage i r).now = s.now := rfl
@[simp] theorem State.setImage_freeCount (i : ImageId) (r : ImageRecord) : (s.setImage i r).freeCount = s.freeCount := rfl
@[simp] theorem State.setImage_resetHeld (i : ImageId) (r : ImageRecord) : (s.setImage i r).resetHeld = s.resetHeld := rfl
@[simp] theorem State.setImage_strap (i : ImageId) (r : ImageRecord) : (s.setImage i r).strap = s.strap := rfl
@[simp] theorem State.setImage_mode (i : ImageId) (r : ImageRecord) : (s.setImage i r).mode = s.mode := rfl
@[simp] theorem State.setImage_defaultAction (i : ImageId) (r : ImageRecord) : (s.setImage i r).defaultAction = s.defaultAction := rfl
@[simp] theorem State.setImage_routes (i : ImageId) (r : ImageRecord) : (s.setImage i r).routes = s.routes := rfl
@[simp] theorem State.setImage_targets (i : ImageId) (r : ImageRecord) : (s.setImage i r).targets = s.targets := rfl
@[simp] theorem State.setImage_checkList (i : ImageId) (r : ImageRecord) : (s.setImage i r).checkList = s.checkList := rfl
@[simp] theorem State.setImage_extents (i : ImageId) (r : ImageRecord) : (s.setImage i r).extents = s.extents := rfl
@[simp] theorem State.setImage_flows (i : ImageId) (r : ImageRecord) : (s.setImage i r).flows = s.flows := rfl
@[simp] theorem State.setImage_cells (i : ImageId) (r : ImageRecord) : (s.setImage i r).cells = s.cells := rfl
@[simp] theorem State.setImage_engine (i : ImageId) (r : ImageRecord) : (s.setImage i r).engine = s.engine := rfl
@[simp] theorem State.setImage_window (i : ImageId) (r : ImageRecord) : (s.setImage i r).window = s.window := rfl
@[simp] theorem State.setImage_supply (i : ImageId) (r : ImageRecord) : (s.setImage i r).supply = s.supply := rfl
@[simp] theorem State.setImage_ports (i : ImageId) (r : ImageRecord) : (s.setImage i r).ports = s.ports := rfl
@[simp] theorem State.setImage_mgmt (i : ImageId) (r : ImageRecord) : (s.setImage i r).mgmt = s.mgmt := rfl
@[simp] theorem State.setImage_alerts (i : ImageId) (r : ImageRecord) : (s.setImage i r).alerts = s.alerts := rfl
@[simp] theorem State.setImage_faults (i : ImageId) (r : ImageRecord) : (s.setImage i r).faults = s.faults := rfl
@[simp] theorem State.setImage_flow (i : ImageId) (r : ImageRecord) (g : FlowId) : (s.setImage i r).flow g = s.flow g := rfl
@[simp] theorem State.setImage_target (i : ImageId) (r : ImageRecord) (m : TargetId) : (s.setImage i r).target m = s.target m := rfl
@[simp] theorem State.setImage_route (i : ImageId) (r : ImageRecord) (m : RouteId) : (s.setImage i r).route m = s.route m := rfl
@[simp] theorem State.setImage_cell (i : ImageId) (r : ImageRecord) (d : CellId) : (s.setImage i r).cell d = s.cell d := rfl
@[simp] theorem State.setImage_port (i : ImageId) (r : ImageRecord) (q : Port) : (s.setImage i r).port q = s.port q := rfl

/-! mapReferences: changes only images -/

@[simp] theorem State.mapReferences_pending (i : ImageId) (g : Nat → Nat) : (s.mapReferences i g).pending = s.pending := rfl
@[simp] theorem State.mapReferences_offers (i : ImageId) (g : Nat → Nat) : (s.mapReferences i g).offers = s.offers := rfl
@[simp] theorem State.mapReferences_outside (i : ImageId) (g : Nat → Nat) : (s.mapReferences i g).outside = s.outside := rfl
@[simp] theorem State.mapReferences_now (i : ImageId) (g : Nat → Nat) : (s.mapReferences i g).now = s.now := rfl
@[simp] theorem State.mapReferences_freeCount (i : ImageId) (g : Nat → Nat) : (s.mapReferences i g).freeCount = s.freeCount := rfl
@[simp] theorem State.mapReferences_resetHeld (i : ImageId) (g : Nat → Nat) : (s.mapReferences i g).resetHeld = s.resetHeld := rfl
@[simp] theorem State.mapReferences_strap (i : ImageId) (g : Nat → Nat) : (s.mapReferences i g).strap = s.strap := rfl
@[simp] theorem State.mapReferences_mode (i : ImageId) (g : Nat → Nat) : (s.mapReferences i g).mode = s.mode := rfl
@[simp] theorem State.mapReferences_defaultAction (i : ImageId) (g : Nat → Nat) : (s.mapReferences i g).defaultAction = s.defaultAction := rfl
@[simp] theorem State.mapReferences_routes (i : ImageId) (g : Nat → Nat) : (s.mapReferences i g).routes = s.routes := rfl
@[simp] theorem State.mapReferences_targets (i : ImageId) (g : Nat → Nat) : (s.mapReferences i g).targets = s.targets := rfl
@[simp] theorem State.mapReferences_checkList (i : ImageId) (g : Nat → Nat) : (s.mapReferences i g).checkList = s.checkList := rfl
@[simp] theorem State.mapReferences_extents (i : ImageId) (g : Nat → Nat) : (s.mapReferences i g).extents = s.extents := rfl
@[simp] theorem State.mapReferences_flows (i : ImageId) (g : Nat → Nat) : (s.mapReferences i g).flows = s.flows := rfl
@[simp] theorem State.mapReferences_cells (i : ImageId) (g : Nat → Nat) : (s.mapReferences i g).cells = s.cells := rfl
@[simp] theorem State.mapReferences_engine (i : ImageId) (g : Nat → Nat) : (s.mapReferences i g).engine = s.engine := rfl
@[simp] theorem State.mapReferences_window (i : ImageId) (g : Nat → Nat) : (s.mapReferences i g).window = s.window := rfl
@[simp] theorem State.mapReferences_supply (i : ImageId) (g : Nat → Nat) : (s.mapReferences i g).supply = s.supply := rfl
@[simp] theorem State.mapReferences_ports (i : ImageId) (g : Nat → Nat) : (s.mapReferences i g).ports = s.ports := rfl
@[simp] theorem State.mapReferences_mgmt (i : ImageId) (g : Nat → Nat) : (s.mapReferences i g).mgmt = s.mgmt := rfl
@[simp] theorem State.mapReferences_alerts (i : ImageId) (g : Nat → Nat) : (s.mapReferences i g).alerts = s.alerts := rfl
@[simp] theorem State.mapReferences_faults (i : ImageId) (g : Nat → Nat) : (s.mapReferences i g).faults = s.faults := rfl
@[simp] theorem State.mapReferences_flow (i : ImageId) (g : Nat → Nat) (g' : FlowId) : (s.mapReferences i g).flow g' = s.flow g' := rfl
@[simp] theorem State.mapReferences_target (i : ImageId) (g : Nat → Nat) (m : TargetId) : (s.mapReferences i g).target m = s.target m := rfl
@[simp] theorem State.mapReferences_route (i : ImageId) (g : Nat → Nat) (m : RouteId) : (s.mapReferences i g).route m = s.route m := rfl
@[simp] theorem State.mapReferences_cell (i : ImageId) (g : Nat → Nat) (d : CellId) : (s.mapReferences i g).cell d = s.cell d := rfl
@[simp] theorem State.mapReferences_port (i : ImageId) (g : Nat → Nat) (q : Port) : (s.mapReferences i g).port q = s.port q := rfl

/-! setCell: changes only cells -/

@[simp] theorem State.setCell_pending (c : CellId) (x : Cell) : (s.setCell c x).pending = s.pending := rfl
@[simp] theorem State.setCell_offers (c : CellId) (x : Cell) : (s.setCell c x).offers = s.offers := rfl
@[simp] theorem State.setCell_outside (c : CellId) (x : Cell) : (s.setCell c x).outside = s.outside := rfl
@[simp] theorem State.setCell_now (c : CellId) (x : Cell) : (s.setCell c x).now = s.now := rfl
@[simp] theorem State.setCell_freeCount (c : CellId) (x : Cell) : (s.setCell c x).freeCount = s.freeCount := rfl
@[simp] theorem State.setCell_resetHeld (c : CellId) (x : Cell) : (s.setCell c x).resetHeld = s.resetHeld := rfl
@[simp] theorem State.setCell_strap (c : CellId) (x : Cell) : (s.setCell c x).strap = s.strap := rfl
@[simp] theorem State.setCell_mode (c : CellId) (x : Cell) : (s.setCell c x).mode = s.mode := rfl
@[simp] theorem State.setCell_defaultAction (c : CellId) (x : Cell) : (s.setCell c x).defaultAction = s.defaultAction := rfl
@[simp] theorem State.setCell_routes (c : CellId) (x : Cell) : (s.setCell c x).routes = s.routes := rfl
@[simp] theorem State.setCell_targets (c : CellId) (x : Cell) : (s.setCell c x).targets = s.targets := rfl
@[simp] theorem State.setCell_images (c : CellId) (x : Cell) : (s.setCell c x).images = s.images := rfl
@[simp] theorem State.setCell_checkList (c : CellId) (x : Cell) : (s.setCell c x).checkList = s.checkList := rfl
@[simp] theorem State.setCell_extents (c : CellId) (x : Cell) : (s.setCell c x).extents = s.extents := rfl
@[simp] theorem State.setCell_flows (c : CellId) (x : Cell) : (s.setCell c x).flows = s.flows := rfl
@[simp] theorem State.setCell_engine (c : CellId) (x : Cell) : (s.setCell c x).engine = s.engine := rfl
@[simp] theorem State.setCell_window (c : CellId) (x : Cell) : (s.setCell c x).window = s.window := rfl
@[simp] theorem State.setCell_supply (c : CellId) (x : Cell) : (s.setCell c x).supply = s.supply := rfl
@[simp] theorem State.setCell_ports (c : CellId) (x : Cell) : (s.setCell c x).ports = s.ports := rfl
@[simp] theorem State.setCell_mgmt (c : CellId) (x : Cell) : (s.setCell c x).mgmt = s.mgmt := rfl
@[simp] theorem State.setCell_alerts (c : CellId) (x : Cell) : (s.setCell c x).alerts = s.alerts := rfl
@[simp] theorem State.setCell_faults (c : CellId) (x : Cell) : (s.setCell c x).faults = s.faults := rfl
@[simp] theorem State.setCell_flow (c : CellId) (x : Cell) (g : FlowId) : (s.setCell c x).flow g = s.flow g := rfl
@[simp] theorem State.setCell_target (c : CellId) (x : Cell) (m : TargetId) : (s.setCell c x).target m = s.target m := rfl
@[simp] theorem State.setCell_route (c : CellId) (x : Cell) (m : RouteId) : (s.setCell c x).route m = s.route m := rfl
@[simp] theorem State.setCell_image (c : CellId) (x : Cell) (j : ImageId) : (s.setCell c x).image j = s.image j := rfl
@[simp] theorem State.setCell_port (c : CellId) (x : Cell) (q : Port) : (s.setCell c x).port q = s.port q := rfl

/-! fillCell: changes only cells -/

@[simp] theorem State.fillCell_pending (c : CellId) (x : CellContent) : (s.fillCell c x).pending = s.pending := rfl
@[simp] theorem State.fillCell_offers (c : CellId) (x : CellContent) : (s.fillCell c x).offers = s.offers := rfl
@[simp] theorem State.fillCell_outside (c : CellId) (x : CellContent) : (s.fillCell c x).outside = s.outside := rfl
@[simp] theorem State.fillCell_now (c : CellId) (x : CellContent) : (s.fillCell c x).now = s.now := rfl
@[simp] theorem State.fillCell_freeCount (c : CellId) (x : CellContent) : (s.fillCell c x).freeCount = s.freeCount := rfl
@[simp] theorem State.fillCell_resetHeld (c : CellId) (x : CellContent) : (s.fillCell c x).resetHeld = s.resetHeld := rfl
@[simp] theorem State.fillCell_strap (c : CellId) (x : CellContent) : (s.fillCell c x).strap = s.strap := rfl
@[simp] theorem State.fillCell_mode (c : CellId) (x : CellContent) : (s.fillCell c x).mode = s.mode := rfl
@[simp] theorem State.fillCell_defaultAction (c : CellId) (x : CellContent) : (s.fillCell c x).defaultAction = s.defaultAction := rfl
@[simp] theorem State.fillCell_routes (c : CellId) (x : CellContent) : (s.fillCell c x).routes = s.routes := rfl
@[simp] theorem State.fillCell_targets (c : CellId) (x : CellContent) : (s.fillCell c x).targets = s.targets := rfl
@[simp] theorem State.fillCell_images (c : CellId) (x : CellContent) : (s.fillCell c x).images = s.images := rfl
@[simp] theorem State.fillCell_checkList (c : CellId) (x : CellContent) : (s.fillCell c x).checkList = s.checkList := rfl
@[simp] theorem State.fillCell_extents (c : CellId) (x : CellContent) : (s.fillCell c x).extents = s.extents := rfl
@[simp] theorem State.fillCell_flows (c : CellId) (x : CellContent) : (s.fillCell c x).flows = s.flows := rfl
@[simp] theorem State.fillCell_engine (c : CellId) (x : CellContent) : (s.fillCell c x).engine = s.engine := rfl
@[simp] theorem State.fillCell_window (c : CellId) (x : CellContent) : (s.fillCell c x).window = s.window := rfl
@[simp] theorem State.fillCell_supply (c : CellId) (x : CellContent) : (s.fillCell c x).supply = s.supply := rfl
@[simp] theorem State.fillCell_ports (c : CellId) (x : CellContent) : (s.fillCell c x).ports = s.ports := rfl
@[simp] theorem State.fillCell_mgmt (c : CellId) (x : CellContent) : (s.fillCell c x).mgmt = s.mgmt := rfl
@[simp] theorem State.fillCell_alerts (c : CellId) (x : CellContent) : (s.fillCell c x).alerts = s.alerts := rfl
@[simp] theorem State.fillCell_faults (c : CellId) (x : CellContent) : (s.fillCell c x).faults = s.faults := rfl
@[simp] theorem State.fillCell_flow (c : CellId) (x : CellContent) (g : FlowId) : (s.fillCell c x).flow g = s.flow g := rfl
@[simp] theorem State.fillCell_target (c : CellId) (x : CellContent) (m : TargetId) : (s.fillCell c x).target m = s.target m := rfl
@[simp] theorem State.fillCell_route (c : CellId) (x : CellContent) (m : RouteId) : (s.fillCell c x).route m = s.route m := rfl
@[simp] theorem State.fillCell_image (c : CellId) (x : CellContent) (j : ImageId) : (s.fillCell c x).image j = s.image j := rfl
@[simp] theorem State.fillCell_port (c : CellId) (x : CellContent) (q : Port) : (s.fillCell c x).port q = s.port q := rfl

/-! freeCell: changes only cells -/

@[simp] theorem State.freeCell_pending (c : CellId) : (s.freeCell c).pending = s.pending := rfl
@[simp] theorem State.freeCell_offers (c : CellId) : (s.freeCell c).offers = s.offers := rfl
@[simp] theorem State.freeCell_outside (c : CellId) : (s.freeCell c).outside = s.outside := rfl
@[simp] theorem State.freeCell_now (c : CellId) : (s.freeCell c).now = s.now := rfl
@[simp] theorem State.freeCell_freeCount (c : CellId) : (s.freeCell c).freeCount = s.freeCount := rfl
@[simp] theorem State.freeCell_resetHeld (c : CellId) : (s.freeCell c).resetHeld = s.resetHeld := rfl
@[simp] theorem State.freeCell_strap (c : CellId) : (s.freeCell c).strap = s.strap := rfl
@[simp] theorem State.freeCell_mode (c : CellId) : (s.freeCell c).mode = s.mode := rfl
@[simp] theorem State.freeCell_defaultAction (c : CellId) : (s.freeCell c).defaultAction = s.defaultAction := rfl
@[simp] theorem State.freeCell_routes (c : CellId) : (s.freeCell c).routes = s.routes := rfl
@[simp] theorem State.freeCell_targets (c : CellId) : (s.freeCell c).targets = s.targets := rfl
@[simp] theorem State.freeCell_images (c : CellId) : (s.freeCell c).images = s.images := rfl
@[simp] theorem State.freeCell_checkList (c : CellId) : (s.freeCell c).checkList = s.checkList := rfl
@[simp] theorem State.freeCell_extents (c : CellId) : (s.freeCell c).extents = s.extents := rfl
@[simp] theorem State.freeCell_flows (c : CellId) : (s.freeCell c).flows = s.flows := rfl
@[simp] theorem State.freeCell_engine (c : CellId) : (s.freeCell c).engine = s.engine := rfl
@[simp] theorem State.freeCell_window (c : CellId) : (s.freeCell c).window = s.window := rfl
@[simp] theorem State.freeCell_supply (c : CellId) : (s.freeCell c).supply = s.supply := rfl
@[simp] theorem State.freeCell_ports (c : CellId) : (s.freeCell c).ports = s.ports := rfl
@[simp] theorem State.freeCell_mgmt (c : CellId) : (s.freeCell c).mgmt = s.mgmt := rfl
@[simp] theorem State.freeCell_alerts (c : CellId) : (s.freeCell c).alerts = s.alerts := rfl
@[simp] theorem State.freeCell_faults (c : CellId) : (s.freeCell c).faults = s.faults := rfl
@[simp] theorem State.freeCell_flow (c : CellId) (g : FlowId) : (s.freeCell c).flow g = s.flow g := rfl
@[simp] theorem State.freeCell_target (c : CellId) (m : TargetId) : (s.freeCell c).target m = s.target m := rfl
@[simp] theorem State.freeCell_route (c : CellId) (m : RouteId) : (s.freeCell c).route m = s.route m := rfl
@[simp] theorem State.freeCell_image (c : CellId) (j : ImageId) : (s.freeCell c).image j = s.image j := rfl
@[simp] theorem State.freeCell_port (c : CellId) (q : Port) : (s.freeCell c).port q = s.port q := rfl

/-! setPort: changes only ports -/

@[simp] theorem State.setPort_pending (p : Port) (u : PortUnit) : (s.setPort p u).pending = s.pending := rfl
@[simp] theorem State.setPort_offers (p : Port) (u : PortUnit) : (s.setPort p u).offers = s.offers := rfl
@[simp] theorem State.setPort_outside (p : Port) (u : PortUnit) : (s.setPort p u).outside = s.outside := rfl
@[simp] theorem State.setPort_now (p : Port) (u : PortUnit) : (s.setPort p u).now = s.now := rfl
@[simp] theorem State.setPort_freeCount (p : Port) (u : PortUnit) : (s.setPort p u).freeCount = s.freeCount := rfl
@[simp] theorem State.setPort_resetHeld (p : Port) (u : PortUnit) : (s.setPort p u).resetHeld = s.resetHeld := rfl
@[simp] theorem State.setPort_strap (p : Port) (u : PortUnit) : (s.setPort p u).strap = s.strap := rfl
@[simp] theorem State.setPort_mode (p : Port) (u : PortUnit) : (s.setPort p u).mode = s.mode := rfl
@[simp] theorem State.setPort_defaultAction (p : Port) (u : PortUnit) : (s.setPort p u).defaultAction = s.defaultAction := rfl
@[simp] theorem State.setPort_routes (p : Port) (u : PortUnit) : (s.setPort p u).routes = s.routes := rfl
@[simp] theorem State.setPort_targets (p : Port) (u : PortUnit) : (s.setPort p u).targets = s.targets := rfl
@[simp] theorem State.setPort_images (p : Port) (u : PortUnit) : (s.setPort p u).images = s.images := rfl
@[simp] theorem State.setPort_checkList (p : Port) (u : PortUnit) : (s.setPort p u).checkList = s.checkList := rfl
@[simp] theorem State.setPort_extents (p : Port) (u : PortUnit) : (s.setPort p u).extents = s.extents := rfl
@[simp] theorem State.setPort_flows (p : Port) (u : PortUnit) : (s.setPort p u).flows = s.flows := rfl
@[simp] theorem State.setPort_cells (p : Port) (u : PortUnit) : (s.setPort p u).cells = s.cells := rfl
@[simp] theorem State.setPort_engine (p : Port) (u : PortUnit) : (s.setPort p u).engine = s.engine := rfl
@[simp] theorem State.setPort_window (p : Port) (u : PortUnit) : (s.setPort p u).window = s.window := rfl
@[simp] theorem State.setPort_supply (p : Port) (u : PortUnit) : (s.setPort p u).supply = s.supply := rfl
@[simp] theorem State.setPort_mgmt (p : Port) (u : PortUnit) : (s.setPort p u).mgmt = s.mgmt := rfl
@[simp] theorem State.setPort_alerts (p : Port) (u : PortUnit) : (s.setPort p u).alerts = s.alerts := rfl
@[simp] theorem State.setPort_faults (p : Port) (u : PortUnit) : (s.setPort p u).faults = s.faults := rfl
@[simp] theorem State.setPort_flow (p : Port) (u : PortUnit) (g : FlowId) : (s.setPort p u).flow g = s.flow g := rfl
@[simp] theorem State.setPort_target (p : Port) (u : PortUnit) (m : TargetId) : (s.setPort p u).target m = s.target m := rfl
@[simp] theorem State.setPort_route (p : Port) (u : PortUnit) (m : RouteId) : (s.setPort p u).route m = s.route m := rfl
@[simp] theorem State.setPort_image (p : Port) (u : PortUnit) (j : ImageId) : (s.setPort p u).image j = s.image j := rfl
@[simp] theorem State.setPort_cell (p : Port) (u : PortUnit) (d : CellId) : (s.setPort p u).cell d = s.cell d := rfl

/-! enqueue: changes only ports -/

@[simp] theorem State.enqueue_pending (p : Port) (k : QueueClass) (f : CanFrame) : (s.enqueue p k f).pending = s.pending := rfl
@[simp] theorem State.enqueue_offers (p : Port) (k : QueueClass) (f : CanFrame) : (s.enqueue p k f).offers = s.offers := rfl
@[simp] theorem State.enqueue_outside (p : Port) (k : QueueClass) (f : CanFrame) : (s.enqueue p k f).outside = s.outside := rfl
@[simp] theorem State.enqueue_now (p : Port) (k : QueueClass) (f : CanFrame) : (s.enqueue p k f).now = s.now := rfl
@[simp] theorem State.enqueue_freeCount (p : Port) (k : QueueClass) (f : CanFrame) : (s.enqueue p k f).freeCount = s.freeCount := rfl
@[simp] theorem State.enqueue_resetHeld (p : Port) (k : QueueClass) (f : CanFrame) : (s.enqueue p k f).resetHeld = s.resetHeld := rfl
@[simp] theorem State.enqueue_strap (p : Port) (k : QueueClass) (f : CanFrame) : (s.enqueue p k f).strap = s.strap := rfl
@[simp] theorem State.enqueue_mode (p : Port) (k : QueueClass) (f : CanFrame) : (s.enqueue p k f).mode = s.mode := rfl
@[simp] theorem State.enqueue_defaultAction (p : Port) (k : QueueClass) (f : CanFrame) : (s.enqueue p k f).defaultAction = s.defaultAction := rfl
@[simp] theorem State.enqueue_routes (p : Port) (k : QueueClass) (f : CanFrame) : (s.enqueue p k f).routes = s.routes := rfl
@[simp] theorem State.enqueue_targets (p : Port) (k : QueueClass) (f : CanFrame) : (s.enqueue p k f).targets = s.targets := rfl
@[simp] theorem State.enqueue_images (p : Port) (k : QueueClass) (f : CanFrame) : (s.enqueue p k f).images = s.images := rfl
@[simp] theorem State.enqueue_checkList (p : Port) (k : QueueClass) (f : CanFrame) : (s.enqueue p k f).checkList = s.checkList := rfl
@[simp] theorem State.enqueue_extents (p : Port) (k : QueueClass) (f : CanFrame) : (s.enqueue p k f).extents = s.extents := rfl
@[simp] theorem State.enqueue_flows (p : Port) (k : QueueClass) (f : CanFrame) : (s.enqueue p k f).flows = s.flows := rfl
@[simp] theorem State.enqueue_cells (p : Port) (k : QueueClass) (f : CanFrame) : (s.enqueue p k f).cells = s.cells := rfl
@[simp] theorem State.enqueue_engine (p : Port) (k : QueueClass) (f : CanFrame) : (s.enqueue p k f).engine = s.engine := rfl
@[simp] theorem State.enqueue_window (p : Port) (k : QueueClass) (f : CanFrame) : (s.enqueue p k f).window = s.window := rfl
@[simp] theorem State.enqueue_supply (p : Port) (k : QueueClass) (f : CanFrame) : (s.enqueue p k f).supply = s.supply := rfl
@[simp] theorem State.enqueue_mgmt (p : Port) (k : QueueClass) (f : CanFrame) : (s.enqueue p k f).mgmt = s.mgmt := rfl
@[simp] theorem State.enqueue_alerts (p : Port) (k : QueueClass) (f : CanFrame) : (s.enqueue p k f).alerts = s.alerts := rfl
@[simp] theorem State.enqueue_faults (p : Port) (k : QueueClass) (f : CanFrame) : (s.enqueue p k f).faults = s.faults := rfl
@[simp] theorem State.enqueue_flow (p : Port) (k : QueueClass) (f : CanFrame) (g : FlowId) : (s.enqueue p k f).flow g = s.flow g := rfl
@[simp] theorem State.enqueue_target (p : Port) (k : QueueClass) (f : CanFrame) (m : TargetId) : (s.enqueue p k f).target m = s.target m := rfl
@[simp] theorem State.enqueue_route (p : Port) (k : QueueClass) (f : CanFrame) (m : RouteId) : (s.enqueue p k f).route m = s.route m := rfl
@[simp] theorem State.enqueue_image (p : Port) (k : QueueClass) (f : CanFrame) (j : ImageId) : (s.enqueue p k f).image j = s.image j := rfl
@[simp] theorem State.enqueue_cell (p : Port) (k : QueueClass) (f : CanFrame) (d : CellId) : (s.enqueue p k f).cell d = s.cell d := rfl

/-! mapSupply: changes only supply -/

@[simp] theorem State.mapSupply_pending (g : Supply → Supply) : (s.mapSupply g).pending = s.pending := rfl
@[simp] theorem State.mapSupply_offers (g : Supply → Supply) : (s.mapSupply g).offers = s.offers := rfl
@[simp] theorem State.mapSupply_outside (g : Supply → Supply) : (s.mapSupply g).outside = s.outside := rfl
@[simp] theorem State.mapSupply_now (g : Supply → Supply) : (s.mapSupply g).now = s.now := rfl
@[simp] theorem State.mapSupply_freeCount (g : Supply → Supply) : (s.mapSupply g).freeCount = s.freeCount := rfl
@[simp] theorem State.mapSupply_resetHeld (g : Supply → Supply) : (s.mapSupply g).resetHeld = s.resetHeld := rfl
@[simp] theorem State.mapSupply_strap (g : Supply → Supply) : (s.mapSupply g).strap = s.strap := rfl
@[simp] theorem State.mapSupply_mode (g : Supply → Supply) : (s.mapSupply g).mode = s.mode := rfl
@[simp] theorem State.mapSupply_defaultAction (g : Supply → Supply) : (s.mapSupply g).defaultAction = s.defaultAction := rfl
@[simp] theorem State.mapSupply_routes (g : Supply → Supply) : (s.mapSupply g).routes = s.routes := rfl
@[simp] theorem State.mapSupply_targets (g : Supply → Supply) : (s.mapSupply g).targets = s.targets := rfl
@[simp] theorem State.mapSupply_images (g : Supply → Supply) : (s.mapSupply g).images = s.images := rfl
@[simp] theorem State.mapSupply_checkList (g : Supply → Supply) : (s.mapSupply g).checkList = s.checkList := rfl
@[simp] theorem State.mapSupply_extents (g : Supply → Supply) : (s.mapSupply g).extents = s.extents := rfl
@[simp] theorem State.mapSupply_flows (g : Supply → Supply) : (s.mapSupply g).flows = s.flows := rfl
@[simp] theorem State.mapSupply_cells (g : Supply → Supply) : (s.mapSupply g).cells = s.cells := rfl
@[simp] theorem State.mapSupply_engine (g : Supply → Supply) : (s.mapSupply g).engine = s.engine := rfl
@[simp] theorem State.mapSupply_window (g : Supply → Supply) : (s.mapSupply g).window = s.window := rfl
@[simp] theorem State.mapSupply_ports (g : Supply → Supply) : (s.mapSupply g).ports = s.ports := rfl
@[simp] theorem State.mapSupply_mgmt (g : Supply → Supply) : (s.mapSupply g).mgmt = s.mgmt := rfl
@[simp] theorem State.mapSupply_alerts (g : Supply → Supply) : (s.mapSupply g).alerts = s.alerts := rfl
@[simp] theorem State.mapSupply_faults (g : Supply → Supply) : (s.mapSupply g).faults = s.faults := rfl
@[simp] theorem State.mapSupply_flow (g : Supply → Supply) (g' : FlowId) : (s.mapSupply g).flow g' = s.flow g' := rfl
@[simp] theorem State.mapSupply_target (g : Supply → Supply) (m : TargetId) : (s.mapSupply g).target m = s.target m := rfl
@[simp] theorem State.mapSupply_route (g : Supply → Supply) (m : RouteId) : (s.mapSupply g).route m = s.route m := rfl
@[simp] theorem State.mapSupply_image (g : Supply → Supply) (j : ImageId) : (s.mapSupply g).image j = s.image j := rfl
@[simp] theorem State.mapSupply_cell (g : Supply → Supply) (d : CellId) : (s.mapSupply g).cell d = s.cell d := rfl
@[simp] theorem State.mapSupply_port (g : Supply → Supply) (q : Port) : (s.mapSupply g).port q = s.port q := rfl

/-! startConversion: changes only supply -/

@[simp] theorem State.startConversion_pending : (s.startConversion).pending = s.pending := rfl
@[simp] theorem State.startConversion_offers : (s.startConversion).offers = s.offers := rfl
@[simp] theorem State.startConversion_outside : (s.startConversion).outside = s.outside := rfl
@[simp] theorem State.startConversion_now : (s.startConversion).now = s.now := rfl
@[simp] theorem State.startConversion_freeCount : (s.startConversion).freeCount = s.freeCount := rfl
@[simp] theorem State.startConversion_resetHeld : (s.startConversion).resetHeld = s.resetHeld := rfl
@[simp] theorem State.startConversion_strap : (s.startConversion).strap = s.strap := rfl
@[simp] theorem State.startConversion_mode : (s.startConversion).mode = s.mode := rfl
@[simp] theorem State.startConversion_defaultAction : (s.startConversion).defaultAction = s.defaultAction := rfl
@[simp] theorem State.startConversion_routes : (s.startConversion).routes = s.routes := rfl
@[simp] theorem State.startConversion_targets : (s.startConversion).targets = s.targets := rfl
@[simp] theorem State.startConversion_images : (s.startConversion).images = s.images := rfl
@[simp] theorem State.startConversion_checkList : (s.startConversion).checkList = s.checkList := rfl
@[simp] theorem State.startConversion_extents : (s.startConversion).extents = s.extents := rfl
@[simp] theorem State.startConversion_flows : (s.startConversion).flows = s.flows := rfl
@[simp] theorem State.startConversion_cells : (s.startConversion).cells = s.cells := rfl
@[simp] theorem State.startConversion_engine : (s.startConversion).engine = s.engine := rfl
@[simp] theorem State.startConversion_window : (s.startConversion).window = s.window := rfl
@[simp] theorem State.startConversion_ports : (s.startConversion).ports = s.ports := rfl
@[simp] theorem State.startConversion_mgmt : (s.startConversion).mgmt = s.mgmt := rfl
@[simp] theorem State.startConversion_alerts : (s.startConversion).alerts = s.alerts := rfl
@[simp] theorem State.startConversion_faults : (s.startConversion).faults = s.faults := rfl
@[simp] theorem State.startConversion_flow (g : FlowId) : (s.startConversion).flow g = s.flow g := rfl
@[simp] theorem State.startConversion_target (m : TargetId) : (s.startConversion).target m = s.target m := rfl
@[simp] theorem State.startConversion_route (m : RouteId) : (s.startConversion).route m = s.route m := rfl
@[simp] theorem State.startConversion_image (j : ImageId) : (s.startConversion).image j = s.image j := rfl
@[simp] theorem State.startConversion_cell (d : CellId) : (s.startConversion).cell d = s.cell d := rfl
@[simp] theorem State.startConversion_port (q : Port) : (s.startConversion).port q = s.port q := rfl

/-! withdrawGate: changes only supply -/

@[simp] theorem State.withdrawGate_pending (f : FlowId) : (s.withdrawGate f).pending = s.pending := rfl
@[simp] theorem State.withdrawGate_offers (f : FlowId) : (s.withdrawGate f).offers = s.offers := rfl
@[simp] theorem State.withdrawGate_outside (f : FlowId) : (s.withdrawGate f).outside = s.outside := rfl
@[simp] theorem State.withdrawGate_now (f : FlowId) : (s.withdrawGate f).now = s.now := rfl
@[simp] theorem State.withdrawGate_freeCount (f : FlowId) : (s.withdrawGate f).freeCount = s.freeCount := rfl
@[simp] theorem State.withdrawGate_resetHeld (f : FlowId) : (s.withdrawGate f).resetHeld = s.resetHeld := rfl
@[simp] theorem State.withdrawGate_strap (f : FlowId) : (s.withdrawGate f).strap = s.strap := rfl
@[simp] theorem State.withdrawGate_mode (f : FlowId) : (s.withdrawGate f).mode = s.mode := rfl
@[simp] theorem State.withdrawGate_defaultAction (f : FlowId) : (s.withdrawGate f).defaultAction = s.defaultAction := rfl
@[simp] theorem State.withdrawGate_routes (f : FlowId) : (s.withdrawGate f).routes = s.routes := rfl
@[simp] theorem State.withdrawGate_targets (f : FlowId) : (s.withdrawGate f).targets = s.targets := rfl
@[simp] theorem State.withdrawGate_images (f : FlowId) : (s.withdrawGate f).images = s.images := rfl
@[simp] theorem State.withdrawGate_checkList (f : FlowId) : (s.withdrawGate f).checkList = s.checkList := rfl
@[simp] theorem State.withdrawGate_extents (f : FlowId) : (s.withdrawGate f).extents = s.extents := rfl
@[simp] theorem State.withdrawGate_flows (f : FlowId) : (s.withdrawGate f).flows = s.flows := rfl
@[simp] theorem State.withdrawGate_cells (f : FlowId) : (s.withdrawGate f).cells = s.cells := rfl
@[simp] theorem State.withdrawGate_engine (f : FlowId) : (s.withdrawGate f).engine = s.engine := rfl
@[simp] theorem State.withdrawGate_window (f : FlowId) : (s.withdrawGate f).window = s.window := rfl
@[simp] theorem State.withdrawGate_ports (f : FlowId) : (s.withdrawGate f).ports = s.ports := rfl
@[simp] theorem State.withdrawGate_mgmt (f : FlowId) : (s.withdrawGate f).mgmt = s.mgmt := rfl
@[simp] theorem State.withdrawGate_alerts (f : FlowId) : (s.withdrawGate f).alerts = s.alerts := rfl
@[simp] theorem State.withdrawGate_faults (f : FlowId) : (s.withdrawGate f).faults = s.faults := rfl
@[simp] theorem State.withdrawGate_flow (f : FlowId) (g : FlowId) : (s.withdrawGate f).flow g = s.flow g := rfl
@[simp] theorem State.withdrawGate_target (f : FlowId) (m : TargetId) : (s.withdrawGate f).target m = s.target m := rfl
@[simp] theorem State.withdrawGate_route (f : FlowId) (m : RouteId) : (s.withdrawGate f).route m = s.route m := rfl
@[simp] theorem State.withdrawGate_image (f : FlowId) (j : ImageId) : (s.withdrawGate f).image j = s.image j := rfl
@[simp] theorem State.withdrawGate_cell (f : FlowId) (d : CellId) : (s.withdrawGate f).cell d = s.cell d := rfl
@[simp] theorem State.withdrawGate_port (f : FlowId) (q : Port) : (s.withdrawGate f).port q = s.port q := rfl

/-! setSupply: changes only supply -/

@[simp] theorem State.setSupply_pending (g : SupplySettings) : (s.setSupply g).pending = s.pending := rfl
@[simp] theorem State.setSupply_offers (g : SupplySettings) : (s.setSupply g).offers = s.offers := rfl
@[simp] theorem State.setSupply_outside (g : SupplySettings) : (s.setSupply g).outside = s.outside := rfl
@[simp] theorem State.setSupply_now (g : SupplySettings) : (s.setSupply g).now = s.now := rfl
@[simp] theorem State.setSupply_freeCount (g : SupplySettings) : (s.setSupply g).freeCount = s.freeCount := rfl
@[simp] theorem State.setSupply_resetHeld (g : SupplySettings) : (s.setSupply g).resetHeld = s.resetHeld := rfl
@[simp] theorem State.setSupply_strap (g : SupplySettings) : (s.setSupply g).strap = s.strap := rfl
@[simp] theorem State.setSupply_mode (g : SupplySettings) : (s.setSupply g).mode = s.mode := rfl
@[simp] theorem State.setSupply_defaultAction (g : SupplySettings) : (s.setSupply g).defaultAction = s.defaultAction := rfl
@[simp] theorem State.setSupply_routes (g : SupplySettings) : (s.setSupply g).routes = s.routes := rfl
@[simp] theorem State.setSupply_targets (g : SupplySettings) : (s.setSupply g).targets = s.targets := rfl
@[simp] theorem State.setSupply_images (g : SupplySettings) : (s.setSupply g).images = s.images := rfl
@[simp] theorem State.setSupply_checkList (g : SupplySettings) : (s.setSupply g).checkList = s.checkList := rfl
@[simp] theorem State.setSupply_extents (g : SupplySettings) : (s.setSupply g).extents = s.extents := rfl
@[simp] theorem State.setSupply_flows (g : SupplySettings) : (s.setSupply g).flows = s.flows := rfl
@[simp] theorem State.setSupply_cells (g : SupplySettings) : (s.setSupply g).cells = s.cells := rfl
@[simp] theorem State.setSupply_engine (g : SupplySettings) : (s.setSupply g).engine = s.engine := rfl
@[simp] theorem State.setSupply_window (g : SupplySettings) : (s.setSupply g).window = s.window := rfl
@[simp] theorem State.setSupply_ports (g : SupplySettings) : (s.setSupply g).ports = s.ports := rfl
@[simp] theorem State.setSupply_mgmt (g : SupplySettings) : (s.setSupply g).mgmt = s.mgmt := rfl
@[simp] theorem State.setSupply_alerts (g : SupplySettings) : (s.setSupply g).alerts = s.alerts := rfl
@[simp] theorem State.setSupply_faults (g : SupplySettings) : (s.setSupply g).faults = s.faults := rfl
@[simp] theorem State.setSupply_flow (g : SupplySettings) (g' : FlowId) : (s.setSupply g).flow g' = s.flow g' := rfl
@[simp] theorem State.setSupply_target (g : SupplySettings) (m : TargetId) : (s.setSupply g).target m = s.target m := rfl
@[simp] theorem State.setSupply_route (g : SupplySettings) (m : RouteId) : (s.setSupply g).route m = s.route m := rfl
@[simp] theorem State.setSupply_image (g : SupplySettings) (j : ImageId) : (s.setSupply g).image j = s.image j := rfl
@[simp] theorem State.setSupply_cell (g : SupplySettings) (d : CellId) : (s.setSupply g).cell d = s.cell d := rfl
@[simp] theorem State.setSupply_port (g : SupplySettings) (q : Port) : (s.setSupply g).port q = s.port q := rfl

/-! queueAlert: changes only alerts -/

@[simp] theorem State.queueAlert_pending (a : Alert) : (s.queueAlert a).pending = s.pending := rfl
@[simp] theorem State.queueAlert_offers (a : Alert) : (s.queueAlert a).offers = s.offers := rfl
@[simp] theorem State.queueAlert_outside (a : Alert) : (s.queueAlert a).outside = s.outside := rfl
@[simp] theorem State.queueAlert_now (a : Alert) : (s.queueAlert a).now = s.now := rfl
@[simp] theorem State.queueAlert_freeCount (a : Alert) : (s.queueAlert a).freeCount = s.freeCount := rfl
@[simp] theorem State.queueAlert_resetHeld (a : Alert) : (s.queueAlert a).resetHeld = s.resetHeld := rfl
@[simp] theorem State.queueAlert_strap (a : Alert) : (s.queueAlert a).strap = s.strap := rfl
@[simp] theorem State.queueAlert_mode (a : Alert) : (s.queueAlert a).mode = s.mode := rfl
@[simp] theorem State.queueAlert_defaultAction (a : Alert) : (s.queueAlert a).defaultAction = s.defaultAction := rfl
@[simp] theorem State.queueAlert_routes (a : Alert) : (s.queueAlert a).routes = s.routes := rfl
@[simp] theorem State.queueAlert_targets (a : Alert) : (s.queueAlert a).targets = s.targets := rfl
@[simp] theorem State.queueAlert_images (a : Alert) : (s.queueAlert a).images = s.images := rfl
@[simp] theorem State.queueAlert_checkList (a : Alert) : (s.queueAlert a).checkList = s.checkList := rfl
@[simp] theorem State.queueAlert_extents (a : Alert) : (s.queueAlert a).extents = s.extents := rfl
@[simp] theorem State.queueAlert_flows (a : Alert) : (s.queueAlert a).flows = s.flows := rfl
@[simp] theorem State.queueAlert_cells (a : Alert) : (s.queueAlert a).cells = s.cells := rfl
@[simp] theorem State.queueAlert_engine (a : Alert) : (s.queueAlert a).engine = s.engine := rfl
@[simp] theorem State.queueAlert_window (a : Alert) : (s.queueAlert a).window = s.window := rfl
@[simp] theorem State.queueAlert_supply (a : Alert) : (s.queueAlert a).supply = s.supply := rfl
@[simp] theorem State.queueAlert_ports (a : Alert) : (s.queueAlert a).ports = s.ports := rfl
@[simp] theorem State.queueAlert_mgmt (a : Alert) : (s.queueAlert a).mgmt = s.mgmt := rfl
@[simp] theorem State.queueAlert_faults (a : Alert) : (s.queueAlert a).faults = s.faults := rfl
@[simp] theorem State.queueAlert_flow (a : Alert) (g : FlowId) : (s.queueAlert a).flow g = s.flow g := rfl
@[simp] theorem State.queueAlert_target (a : Alert) (m : TargetId) : (s.queueAlert a).target m = s.target m := rfl
@[simp] theorem State.queueAlert_route (a : Alert) (m : RouteId) : (s.queueAlert a).route m = s.route m := rfl
@[simp] theorem State.queueAlert_image (a : Alert) (j : ImageId) : (s.queueAlert a).image j = s.image j := rfl
@[simp] theorem State.queueAlert_cell (a : Alert) (d : CellId) : (s.queueAlert a).cell d = s.cell d := rfl
@[simp] theorem State.queueAlert_port (a : Alert) (q : Port) : (s.queueAlert a).port q = s.port q := rfl

/-! removeAlert: changes only alerts -/

@[simp] theorem State.removeAlert_pending (k : AlertKey) : (s.removeAlert k).pending = s.pending := rfl
@[simp] theorem State.removeAlert_offers (k : AlertKey) : (s.removeAlert k).offers = s.offers := rfl
@[simp] theorem State.removeAlert_outside (k : AlertKey) : (s.removeAlert k).outside = s.outside := rfl
@[simp] theorem State.removeAlert_now (k : AlertKey) : (s.removeAlert k).now = s.now := rfl
@[simp] theorem State.removeAlert_freeCount (k : AlertKey) : (s.removeAlert k).freeCount = s.freeCount := rfl
@[simp] theorem State.removeAlert_resetHeld (k : AlertKey) : (s.removeAlert k).resetHeld = s.resetHeld := rfl
@[simp] theorem State.removeAlert_strap (k : AlertKey) : (s.removeAlert k).strap = s.strap := rfl
@[simp] theorem State.removeAlert_mode (k : AlertKey) : (s.removeAlert k).mode = s.mode := rfl
@[simp] theorem State.removeAlert_defaultAction (k : AlertKey) : (s.removeAlert k).defaultAction = s.defaultAction := rfl
@[simp] theorem State.removeAlert_routes (k : AlertKey) : (s.removeAlert k).routes = s.routes := rfl
@[simp] theorem State.removeAlert_targets (k : AlertKey) : (s.removeAlert k).targets = s.targets := rfl
@[simp] theorem State.removeAlert_images (k : AlertKey) : (s.removeAlert k).images = s.images := rfl
@[simp] theorem State.removeAlert_checkList (k : AlertKey) : (s.removeAlert k).checkList = s.checkList := rfl
@[simp] theorem State.removeAlert_extents (k : AlertKey) : (s.removeAlert k).extents = s.extents := rfl
@[simp] theorem State.removeAlert_flows (k : AlertKey) : (s.removeAlert k).flows = s.flows := rfl
@[simp] theorem State.removeAlert_cells (k : AlertKey) : (s.removeAlert k).cells = s.cells := rfl
@[simp] theorem State.removeAlert_engine (k : AlertKey) : (s.removeAlert k).engine = s.engine := rfl
@[simp] theorem State.removeAlert_window (k : AlertKey) : (s.removeAlert k).window = s.window := rfl
@[simp] theorem State.removeAlert_supply (k : AlertKey) : (s.removeAlert k).supply = s.supply := rfl
@[simp] theorem State.removeAlert_ports (k : AlertKey) : (s.removeAlert k).ports = s.ports := rfl
@[simp] theorem State.removeAlert_mgmt (k : AlertKey) : (s.removeAlert k).mgmt = s.mgmt := rfl
@[simp] theorem State.removeAlert_faults (k : AlertKey) : (s.removeAlert k).faults = s.faults := rfl
@[simp] theorem State.removeAlert_flow (k : AlertKey) (g : FlowId) : (s.removeAlert k).flow g = s.flow g := rfl
@[simp] theorem State.removeAlert_target (k : AlertKey) (m : TargetId) : (s.removeAlert k).target m = s.target m := rfl
@[simp] theorem State.removeAlert_route (k : AlertKey) (m : RouteId) : (s.removeAlert k).route m = s.route m := rfl
@[simp] theorem State.removeAlert_image (k : AlertKey) (j : ImageId) : (s.removeAlert k).image j = s.image j := rfl
@[simp] theorem State.removeAlert_cell (k : AlertKey) (d : CellId) : (s.removeAlert k).cell d = s.cell d := rfl
@[simp] theorem State.removeAlert_port (k : AlertKey) (q : Port) : (s.removeAlert k).port q = s.port q := rfl

/-! dropHead: changes only mgmt -/

@[simp] theorem State.dropHead_pending : (s.dropHead).pending = s.pending := rfl
@[simp] theorem State.dropHead_offers : (s.dropHead).offers = s.offers := rfl
@[simp] theorem State.dropHead_outside : (s.dropHead).outside = s.outside := rfl
@[simp] theorem State.dropHead_now : (s.dropHead).now = s.now := rfl
@[simp] theorem State.dropHead_freeCount : (s.dropHead).freeCount = s.freeCount := rfl
@[simp] theorem State.dropHead_resetHeld : (s.dropHead).resetHeld = s.resetHeld := rfl
@[simp] theorem State.dropHead_strap : (s.dropHead).strap = s.strap := rfl
@[simp] theorem State.dropHead_mode : (s.dropHead).mode = s.mode := rfl
@[simp] theorem State.dropHead_defaultAction : (s.dropHead).defaultAction = s.defaultAction := rfl
@[simp] theorem State.dropHead_routes : (s.dropHead).routes = s.routes := rfl
@[simp] theorem State.dropHead_targets : (s.dropHead).targets = s.targets := rfl
@[simp] theorem State.dropHead_images : (s.dropHead).images = s.images := rfl
@[simp] theorem State.dropHead_checkList : (s.dropHead).checkList = s.checkList := rfl
@[simp] theorem State.dropHead_extents : (s.dropHead).extents = s.extents := rfl
@[simp] theorem State.dropHead_flows : (s.dropHead).flows = s.flows := rfl
@[simp] theorem State.dropHead_cells : (s.dropHead).cells = s.cells := rfl
@[simp] theorem State.dropHead_engine : (s.dropHead).engine = s.engine := rfl
@[simp] theorem State.dropHead_window : (s.dropHead).window = s.window := rfl
@[simp] theorem State.dropHead_supply : (s.dropHead).supply = s.supply := rfl
@[simp] theorem State.dropHead_ports : (s.dropHead).ports = s.ports := rfl
@[simp] theorem State.dropHead_alerts : (s.dropHead).alerts = s.alerts := rfl
@[simp] theorem State.dropHead_faults : (s.dropHead).faults = s.faults := rfl
@[simp] theorem State.dropHead_flow (g : FlowId) : (s.dropHead).flow g = s.flow g := rfl
@[simp] theorem State.dropHead_target (m : TargetId) : (s.dropHead).target m = s.target m := rfl
@[simp] theorem State.dropHead_route (m : RouteId) : (s.dropHead).route m = s.route m := rfl
@[simp] theorem State.dropHead_image (j : ImageId) : (s.dropHead).image j = s.image j := rfl
@[simp] theorem State.dropHead_cell (d : CellId) : (s.dropHead).cell d = s.cell d := rfl
@[simp] theorem State.dropHead_port (q : Port) : (s.dropHead).port q = s.port q := rfl

/-! setRenewal: changes only window -/

@[simp] theorem State.setRenewal_pending (k : RenewalStep) : (s.setRenewal k).pending = s.pending := rfl
@[simp] theorem State.setRenewal_offers (k : RenewalStep) : (s.setRenewal k).offers = s.offers := rfl
@[simp] theorem State.setRenewal_outside (k : RenewalStep) : (s.setRenewal k).outside = s.outside := rfl
@[simp] theorem State.setRenewal_now (k : RenewalStep) : (s.setRenewal k).now = s.now := rfl
@[simp] theorem State.setRenewal_freeCount (k : RenewalStep) : (s.setRenewal k).freeCount = s.freeCount := rfl
@[simp] theorem State.setRenewal_resetHeld (k : RenewalStep) : (s.setRenewal k).resetHeld = s.resetHeld := rfl
@[simp] theorem State.setRenewal_strap (k : RenewalStep) : (s.setRenewal k).strap = s.strap := rfl
@[simp] theorem State.setRenewal_mode (k : RenewalStep) : (s.setRenewal k).mode = s.mode := rfl
@[simp] theorem State.setRenewal_defaultAction (k : RenewalStep) : (s.setRenewal k).defaultAction = s.defaultAction := rfl
@[simp] theorem State.setRenewal_routes (k : RenewalStep) : (s.setRenewal k).routes = s.routes := rfl
@[simp] theorem State.setRenewal_targets (k : RenewalStep) : (s.setRenewal k).targets = s.targets := rfl
@[simp] theorem State.setRenewal_images (k : RenewalStep) : (s.setRenewal k).images = s.images := rfl
@[simp] theorem State.setRenewal_checkList (k : RenewalStep) : (s.setRenewal k).checkList = s.checkList := rfl
@[simp] theorem State.setRenewal_extents (k : RenewalStep) : (s.setRenewal k).extents = s.extents := rfl
@[simp] theorem State.setRenewal_flows (k : RenewalStep) : (s.setRenewal k).flows = s.flows := rfl
@[simp] theorem State.setRenewal_cells (k : RenewalStep) : (s.setRenewal k).cells = s.cells := rfl
@[simp] theorem State.setRenewal_engine (k : RenewalStep) : (s.setRenewal k).engine = s.engine := rfl
@[simp] theorem State.setRenewal_supply (k : RenewalStep) : (s.setRenewal k).supply = s.supply := rfl
@[simp] theorem State.setRenewal_ports (k : RenewalStep) : (s.setRenewal k).ports = s.ports := rfl
@[simp] theorem State.setRenewal_mgmt (k : RenewalStep) : (s.setRenewal k).mgmt = s.mgmt := rfl
@[simp] theorem State.setRenewal_alerts (k : RenewalStep) : (s.setRenewal k).alerts = s.alerts := rfl
@[simp] theorem State.setRenewal_faults (k : RenewalStep) : (s.setRenewal k).faults = s.faults := rfl
@[simp] theorem State.setRenewal_flow (k : RenewalStep) (g : FlowId) : (s.setRenewal k).flow g = s.flow g := rfl
@[simp] theorem State.setRenewal_target (k : RenewalStep) (m : TargetId) : (s.setRenewal k).target m = s.target m := rfl
@[simp] theorem State.setRenewal_route (k : RenewalStep) (m : RouteId) : (s.setRenewal k).route m = s.route m := rfl
@[simp] theorem State.setRenewal_image (k : RenewalStep) (j : ImageId) : (s.setRenewal k).image j = s.image j := rfl
@[simp] theorem State.setRenewal_cell (k : RenewalStep) (d : CellId) : (s.setRenewal k).cell d = s.cell d := rfl
@[simp] theorem State.setRenewal_port (k : RenewalStep) (q : Port) : (s.setRenewal k).port q = s.port q := rfl

/-! renew: changes only window -/

@[simp] theorem State.renew_pending : (s.renew).pending = s.pending := rfl
@[simp] theorem State.renew_offers : (s.renew).offers = s.offers := rfl
@[simp] theorem State.renew_outside : (s.renew).outside = s.outside := rfl
@[simp] theorem State.renew_now : (s.renew).now = s.now := rfl
@[simp] theorem State.renew_freeCount : (s.renew).freeCount = s.freeCount := rfl
@[simp] theorem State.renew_resetHeld : (s.renew).resetHeld = s.resetHeld := rfl
@[simp] theorem State.renew_strap : (s.renew).strap = s.strap := rfl
@[simp] theorem State.renew_mode : (s.renew).mode = s.mode := rfl
@[simp] theorem State.renew_defaultAction : (s.renew).defaultAction = s.defaultAction := rfl
@[simp] theorem State.renew_routes : (s.renew).routes = s.routes := rfl
@[simp] theorem State.renew_targets : (s.renew).targets = s.targets := rfl
@[simp] theorem State.renew_images : (s.renew).images = s.images := rfl
@[simp] theorem State.renew_checkList : (s.renew).checkList = s.checkList := rfl
@[simp] theorem State.renew_extents : (s.renew).extents = s.extents := rfl
@[simp] theorem State.renew_flows : (s.renew).flows = s.flows := rfl
@[simp] theorem State.renew_cells : (s.renew).cells = s.cells := rfl
@[simp] theorem State.renew_engine : (s.renew).engine = s.engine := rfl
@[simp] theorem State.renew_supply : (s.renew).supply = s.supply := rfl
@[simp] theorem State.renew_ports : (s.renew).ports = s.ports := rfl
@[simp] theorem State.renew_mgmt : (s.renew).mgmt = s.mgmt := rfl
@[simp] theorem State.renew_alerts : (s.renew).alerts = s.alerts := rfl
@[simp] theorem State.renew_faults : (s.renew).faults = s.faults := rfl
@[simp] theorem State.renew_flow (g : FlowId) : (s.renew).flow g = s.flow g := rfl
@[simp] theorem State.renew_target (m : TargetId) : (s.renew).target m = s.target m := rfl
@[simp] theorem State.renew_route (m : RouteId) : (s.renew).route m = s.route m := rfl
@[simp] theorem State.renew_image (j : ImageId) : (s.renew).image j = s.image j := rfl
@[simp] theorem State.renew_cell (d : CellId) : (s.renew).cell d = s.cell d := rfl
@[simp] theorem State.renew_port (q : Port) : (s.renew).port q = s.port q := rfl

/-! offerTrunk: changes only offers -/

@[simp] theorem State.offerTrunk_pending (k : QueueClass) (x : CanFrame) : (s.offerTrunk k x).pending = s.pending := rfl
@[simp] theorem State.offerTrunk_outside (k : QueueClass) (x : CanFrame) : (s.offerTrunk k x).outside = s.outside := rfl
@[simp] theorem State.offerTrunk_now (k : QueueClass) (x : CanFrame) : (s.offerTrunk k x).now = s.now := rfl
@[simp] theorem State.offerTrunk_freeCount (k : QueueClass) (x : CanFrame) : (s.offerTrunk k x).freeCount = s.freeCount := rfl
@[simp] theorem State.offerTrunk_resetHeld (k : QueueClass) (x : CanFrame) : (s.offerTrunk k x).resetHeld = s.resetHeld := rfl
@[simp] theorem State.offerTrunk_strap (k : QueueClass) (x : CanFrame) : (s.offerTrunk k x).strap = s.strap := rfl
@[simp] theorem State.offerTrunk_mode (k : QueueClass) (x : CanFrame) : (s.offerTrunk k x).mode = s.mode := rfl
@[simp] theorem State.offerTrunk_defaultAction (k : QueueClass) (x : CanFrame) : (s.offerTrunk k x).defaultAction = s.defaultAction := rfl
@[simp] theorem State.offerTrunk_routes (k : QueueClass) (x : CanFrame) : (s.offerTrunk k x).routes = s.routes := rfl
@[simp] theorem State.offerTrunk_targets (k : QueueClass) (x : CanFrame) : (s.offerTrunk k x).targets = s.targets := rfl
@[simp] theorem State.offerTrunk_images (k : QueueClass) (x : CanFrame) : (s.offerTrunk k x).images = s.images := rfl
@[simp] theorem State.offerTrunk_checkList (k : QueueClass) (x : CanFrame) : (s.offerTrunk k x).checkList = s.checkList := rfl
@[simp] theorem State.offerTrunk_extents (k : QueueClass) (x : CanFrame) : (s.offerTrunk k x).extents = s.extents := rfl
@[simp] theorem State.offerTrunk_flows (k : QueueClass) (x : CanFrame) : (s.offerTrunk k x).flows = s.flows := rfl
@[simp] theorem State.offerTrunk_cells (k : QueueClass) (x : CanFrame) : (s.offerTrunk k x).cells = s.cells := rfl
@[simp] theorem State.offerTrunk_engine (k : QueueClass) (x : CanFrame) : (s.offerTrunk k x).engine = s.engine := rfl
@[simp] theorem State.offerTrunk_window (k : QueueClass) (x : CanFrame) : (s.offerTrunk k x).window = s.window := rfl
@[simp] theorem State.offerTrunk_supply (k : QueueClass) (x : CanFrame) : (s.offerTrunk k x).supply = s.supply := rfl
@[simp] theorem State.offerTrunk_ports (k : QueueClass) (x : CanFrame) : (s.offerTrunk k x).ports = s.ports := rfl
@[simp] theorem State.offerTrunk_mgmt (k : QueueClass) (x : CanFrame) : (s.offerTrunk k x).mgmt = s.mgmt := rfl
@[simp] theorem State.offerTrunk_alerts (k : QueueClass) (x : CanFrame) : (s.offerTrunk k x).alerts = s.alerts := rfl
@[simp] theorem State.offerTrunk_faults (k : QueueClass) (x : CanFrame) : (s.offerTrunk k x).faults = s.faults := rfl
@[simp] theorem State.offerTrunk_flow (k : QueueClass) (x : CanFrame) (g : FlowId) : (s.offerTrunk k x).flow g = s.flow g := rfl
@[simp] theorem State.offerTrunk_target (k : QueueClass) (x : CanFrame) (m : TargetId) : (s.offerTrunk k x).target m = s.target m := rfl
@[simp] theorem State.offerTrunk_route (k : QueueClass) (x : CanFrame) (m : RouteId) : (s.offerTrunk k x).route m = s.route m := rfl
@[simp] theorem State.offerTrunk_image (k : QueueClass) (x : CanFrame) (j : ImageId) : (s.offerTrunk k x).image j = s.image j := rfl
@[simp] theorem State.offerTrunk_cell (k : QueueClass) (x : CanFrame) (d : CellId) : (s.offerTrunk k x).cell d = s.cell d := rfl
@[simp] theorem State.offerTrunk_port (k : QueueClass) (x : CanFrame) (q : Port) : (s.offerTrunk k x).port q = s.port q := rfl
@[simp] theorem State.offerTrunk_offers (k : QueueClass) (x : CanFrame) :
    (s.offerTrunk k x).offers = s.offers ++ [⟨k, x, false⟩] := rfl

/-! offersComeFirst: changes only offers -/

/-- What the event has offered so far, marked or as it stands. -/
theorem State.offersComeFirst_eq : ∃ l, s.offersComeFirst = { s with offers := l } := by
  unfold State.offersComeFirst
  split
  · exact ⟨_, rfl⟩
  · exact ⟨s.offers, rfl⟩

@[simp] theorem State.offersComeFirst_pending : s.offersComeFirst.pending = s.pending := by
  obtain ⟨l, h⟩ := s.offersComeFirst_eq; rw [h]
@[simp] theorem State.offersComeFirst_outside : s.offersComeFirst.outside = s.outside := by
  obtain ⟨l, h⟩ := s.offersComeFirst_eq; rw [h]
@[simp] theorem State.offersComeFirst_now : s.offersComeFirst.now = s.now := by
  obtain ⟨l, h⟩ := s.offersComeFirst_eq; rw [h]
@[simp] theorem State.offersComeFirst_freeCount : s.offersComeFirst.freeCount = s.freeCount := by
  obtain ⟨l, h⟩ := s.offersComeFirst_eq; rw [h]
@[simp] theorem State.offersComeFirst_resetHeld : s.offersComeFirst.resetHeld = s.resetHeld := by
  obtain ⟨l, h⟩ := s.offersComeFirst_eq; rw [h]
@[simp] theorem State.offersComeFirst_strap : s.offersComeFirst.strap = s.strap := by
  obtain ⟨l, h⟩ := s.offersComeFirst_eq; rw [h]
@[simp] theorem State.offersComeFirst_mode : s.offersComeFirst.mode = s.mode := by
  obtain ⟨l, h⟩ := s.offersComeFirst_eq; rw [h]
@[simp] theorem State.offersComeFirst_defaultAction : s.offersComeFirst.defaultAction = s.defaultAction := by
  obtain ⟨l, h⟩ := s.offersComeFirst_eq; rw [h]
@[simp] theorem State.offersComeFirst_routes : s.offersComeFirst.routes = s.routes := by
  obtain ⟨l, h⟩ := s.offersComeFirst_eq; rw [h]
@[simp] theorem State.offersComeFirst_targets : s.offersComeFirst.targets = s.targets := by
  obtain ⟨l, h⟩ := s.offersComeFirst_eq; rw [h]
@[simp] theorem State.offersComeFirst_images : s.offersComeFirst.images = s.images := by
  obtain ⟨l, h⟩ := s.offersComeFirst_eq; rw [h]
@[simp] theorem State.offersComeFirst_checkList : s.offersComeFirst.checkList = s.checkList := by
  obtain ⟨l, h⟩ := s.offersComeFirst_eq; rw [h]
@[simp] theorem State.offersComeFirst_extents : s.offersComeFirst.extents = s.extents := by
  obtain ⟨l, h⟩ := s.offersComeFirst_eq; rw [h]
@[simp] theorem State.offersComeFirst_flows : s.offersComeFirst.flows = s.flows := by
  obtain ⟨l, h⟩ := s.offersComeFirst_eq; rw [h]
@[simp] theorem State.offersComeFirst_cells : s.offersComeFirst.cells = s.cells := by
  obtain ⟨l, h⟩ := s.offersComeFirst_eq; rw [h]
@[simp] theorem State.offersComeFirst_engine : s.offersComeFirst.engine = s.engine := by
  obtain ⟨l, h⟩ := s.offersComeFirst_eq; rw [h]
@[simp] theorem State.offersComeFirst_window : s.offersComeFirst.window = s.window := by
  obtain ⟨l, h⟩ := s.offersComeFirst_eq; rw [h]
@[simp] theorem State.offersComeFirst_supply : s.offersComeFirst.supply = s.supply := by
  obtain ⟨l, h⟩ := s.offersComeFirst_eq; rw [h]
@[simp] theorem State.offersComeFirst_ports : s.offersComeFirst.ports = s.ports := by
  obtain ⟨l, h⟩ := s.offersComeFirst_eq; rw [h]
@[simp] theorem State.offersComeFirst_mgmt : s.offersComeFirst.mgmt = s.mgmt := by
  obtain ⟨l, h⟩ := s.offersComeFirst_eq; rw [h]
@[simp] theorem State.offersComeFirst_alerts : s.offersComeFirst.alerts = s.alerts := by
  obtain ⟨l, h⟩ := s.offersComeFirst_eq; rw [h]
@[simp] theorem State.offersComeFirst_faults : s.offersComeFirst.faults = s.faults := by
  obtain ⟨l, h⟩ := s.offersComeFirst_eq; rw [h]
@[simp] theorem State.offersComeFirst_flow (g : FlowId) : s.offersComeFirst.flow g = s.flow g := by
  obtain ⟨l, h⟩ := s.offersComeFirst_eq; rw [h]; rfl
@[simp] theorem State.offersComeFirst_target (m : TargetId) : s.offersComeFirst.target m = s.target m := by
  obtain ⟨l, h⟩ := s.offersComeFirst_eq; rw [h]; rfl
@[simp] theorem State.offersComeFirst_route (m : RouteId) : s.offersComeFirst.route m = s.route m := by
  obtain ⟨l, h⟩ := s.offersComeFirst_eq; rw [h]; rfl
@[simp] theorem State.offersComeFirst_image (j : ImageId) : s.offersComeFirst.image j = s.image j := by
  obtain ⟨l, h⟩ := s.offersComeFirst_eq; rw [h]; rfl
@[simp] theorem State.offersComeFirst_cell (d : CellId) : s.offersComeFirst.cell d = s.cell d := by
  obtain ⟨l, h⟩ := s.offersComeFirst_eq; rw [h]; rfl
@[simp] theorem State.offersComeFirst_port (q : Port) : s.offersComeFirst.port q = s.port q := by
  obtain ⟨l, h⟩ := s.offersComeFirst_eq; rw [h]; rfl

/-- With nothing offered nothing changes. -/
@[simp] theorem State.offersComeFirst_nil (h : s.offers = []) : s.offersComeFirst = s := by
  unfold State.offersComeFirst
  split
  · rw [h]
    show ({ s with offers := [] } : State) = s
    rw [← h]
  · rfl

end Sys2Proof.Machine
end

