-- ==== Sys2Proof/Laws/Tables.lean ====
section
/-! SUPPORT. Reading a record after writing one, and what a fold over flows or ports leaves unchanged. -/

namespace Sys2Proof.Machine

/-! One theorem is checked after another: many at once pass the memory limit. -/

set_option Elab.async false

variable (s : State)

/-! ## Reading after writing -/

@[simp] theorem State.flow_setFlow (f g : FlowId) (c : FlowCtx) :
    (s.setFlow f c).flow g = if g = f then c else s.flow g := by
  simp only [State.flow, State.setFlow, Vector.get_eq_getElem, Vector.getElem_set, Fin.ext_iff]
  split <;> split <;> first | rfl | omega

@[simp] theorem State.flow_mapFlow (f g : FlowId) (h : FlowCtx → FlowCtx) :
    (s.mapFlow f h).flow g = if g = f then h (s.flow f) else s.flow g := s.flow_setFlow f g _

@[simp] theorem State.flow_setRecord (f g : FlowId) (r : Option ParcelRecord) :
    (s.setRecord f r).flow g = if g = f then { s.flow f with record := r } else s.flow g := s.flow_setFlow f g _

@[simp] theorem State.flow_setVerdict (f g : FlowId) (v : Verdict) :
    (s.setVerdict f v).flow g = if g = f then { s.flow f with lastVerdict := some v } else s.flow g :=
  s.flow_setFlow f g _

@[simp] theorem State.flow_clearPending (f g : FlowId) :
    (s.clearPending f).flow g = if g = f then { s.flow f with pendingReq := none } else s.flow g :=
  s.flow_setFlow f g _

@[simp] theorem State.flow_setFlowState (f g : FlowId) (k : FlowState) :
    (s.setFlowState f k).flow g = if g = f then { s.flow f with state := k } else s.flow g := s.flow_setFlow f g _

@[simp] theorem State.target_setTarget (n m : TargetId) (e : TargetEntry) :
    (s.setTarget n e).target m = if m = n then e else s.target m := by
  simp only [State.target, State.setTarget, Vector.get_eq_getElem, Vector.getElem_set, Fin.ext_iff]
  split <;> split <;> first | rfl | omega

@[simp] theorem State.target_setTracker (n m : TargetId) (k : Tracker) :
    (s.setTracker n k).target m = if m = n then { s.target n with tracker := k } else s.target m :=
  s.target_setTarget n m _

@[simp] theorem State.route_setRoute (n m : RouteId) (e : RouteEntry) :
    (s.setRoute n e).route m = if m = n then e else s.route m := by
  simp only [State.route, State.setRoute, Vector.get_eq_getElem, Vector.getElem_set, Fin.ext_iff]
  split <;> split <;> first | rfl | omega

@[simp] theorem State.image_setImage (i j : ImageId) (r : ImageRecord) :
    (s.setImage i r).image j = if j = i then r else s.image j := by
  simp only [State.image, State.setImage, Vector.get_eq_getElem, Vector.getElem_set, Fin.ext_iff]
  split <;> split <;> first | rfl | omega

@[simp] theorem State.cell_setCell (c d : CellId) (x : Cell) :
    (s.setCell c x).cell d = if d = c then x else s.cell d := by
  simp only [State.cell, State.setCell, Vector.get_eq_getElem, Vector.getElem_set, Fin.ext_iff]
  split <;> split <;> first | rfl | omega

@[simp] theorem State.cell_fillCell (c d : CellId) (x : CellContent) :
    (s.fillCell c x).cell d = if d = c then ⟨true, x, false⟩ else s.cell d := s.cell_setCell c d _

@[simp] theorem State.cell_freeCell (c d : CellId) :
    (s.freeCell c).cell d = if d = c then { s.cell c with inUse := false } else s.cell d := s.cell_setCell c d _

@[simp] theorem Ports.get_set (ps : Ports) (p q : Port) (u : PortUnit) :
    (ps.set p u).get q = if q = p then u else ps.get q := by cases p <;> cases q <;> rfl

@[simp] theorem Ports.set_get (ps : Ports) (p : Port) : ps.set p (ps.get p) = ps := by cases p <;> rfl

@[simp] theorem Ports.set_set (ps : Ports) (p : Port) (u v : PortUnit) : (ps.set p u).set p v = ps.set p v := by
  cases p <;> rfl

@[simp] theorem State.port_setPort (p q : Port) (u : PortUnit) :
    (s.setPort p u).port q = if q = p then u else s.port q := s.ports.get_set p q u

/-! ## Records under updates written as record updates -/

theorem State.flow_eq (f : FlowId) : s.flow f = s.flows.get f := rfl

theorem State.target_eq (n : TargetId) : s.target n = s.targets.get n := rfl

theorem State.image_eq (i : ImageId) : s.image i = s.images.get i := rfl

theorem State.port_eq (p : Port) : s.port p = s.ports.get p := rfl

/-! ## Folds -/

/-- A view that every step of a fold keeps is kept by the fold. -/
theorem foldl_view {α β σ : Type} (view : σ → β) (step : σ → α → σ) (h : ∀ s a, view (step s a) = view s)
    (l : List α) (s : σ) : view (l.foldl step s) = view s := by
  induction l generalizing s with
  | nil => rfl
  | cons a l ih => rw [List.foldl_cons, ih, h]

/-- A property that every step of a fold keeps is kept by the fold. -/
theorem foldl_keeps {α σ : Type} (p : σ → Prop) (step : σ → α → σ) (h : ∀ s a, p s → p (step s a))
    (l : List α) (s : σ) (hs : p s) : p (l.foldl step s) := by
  induction l generalizing s with
  | nil => exact hs
  | cons a l ih => exact ih _ (h s a hs)

end Sys2Proof.Machine
end

