-- ==== Sys2Proof/Laws/Kept.lean ====
section
/-! SUPPORT. The part of the state that traffic, flows, cells, the supply and alerts never touch: one lemma for each
shared operation says that it keeps that part. -/

namespace Sys2Proof.Machine

/-! One theorem is checked after another: many at once pass the memory limit. -/

set_option Elab.async false

/-- What only the commands of the manifest memory, the window, the part mode, the straps and the step itself
change. -/
structure Kept where
  pending : List Instr
  outside : List Outside
  now : Time
  freeCount : Nat
  resetHeld : Bool
  strap : BitVec 3
  mode : PartMode
  defaultAction : DefaultAction
  images : Vector ImageRecord 16
  checkList : CheckMem
  extents : List ExtentEntry
  window : Window

/-- That part of a state. -/
def State.kept (s : State) : Kept :=
  ⟨s.pending, s.outside, s.now, s.freeCount, s.resetHeld, s.strap, s.mode, s.defaultAction, s.images, s.checkList, s.extents, s.window⟩

/-- A field of the kept part is unchanged when the part is. -/
theorem kept_field {α : Type} {s t : State} (view : Kept → α) (h : t.kept = s.kept) : view t.kept = view s.kept :=
  congrArg view h

variable (s : State)

/-! ## Plain updates -/

@[simp] theorem State.setFlow_kept (f : FlowId) (c : FlowCtx) : (s.setFlow f c).kept = s.kept := rfl
@[simp] theorem State.mapFlow_kept (f : FlowId) (g : FlowCtx → FlowCtx) : (s.mapFlow f g).kept = s.kept := rfl
@[simp] theorem State.setRecord_kept (f : FlowId) (r : Option ParcelRecord) : (s.setRecord f r).kept = s.kept := rfl
@[simp] theorem State.setVerdict_kept (f : FlowId) (v : Verdict) : (s.setVerdict f v).kept = s.kept := rfl
@[simp] theorem State.beginPending_kept (f : FlowId) (k : PendingKind) : (s.beginPending f k).kept = s.kept := rfl
@[simp] theorem State.clearPending_kept (f : FlowId) : (s.clearPending f).kept = s.kept := rfl
@[simp] theorem State.setRegion_kept (f : FlowId) (r : Nat) (k : RegionState) : (s.setRegion f r k).kept = s.kept := rfl
@[simp] theorem State.setFlowState_kept (f : FlowId) (k : FlowState) : (s.setFlowState f k).kept = s.kept := rfl
@[simp] theorem State.closeToIdle_kept (f : FlowId) : (s.closeToIdle f).kept = s.kept := rfl
@[simp] theorem State.opened_kept (f : FlowId) (o : OpenRegion) : (s.opened f o).kept = s.kept := rfl
@[simp] theorem State.setTarget_kept (n : TargetId) (e : TargetEntry) : (s.setTarget n e).kept = s.kept := rfl
@[simp] theorem State.setTracker_kept (n : TargetId) (k : Tracker) : (s.setTracker n k).kept = s.kept := rfl
@[simp] theorem State.setRoute_kept (n : RouteId) (e : RouteEntry) : (s.setRoute n e).kept = s.kept := rfl
@[simp] theorem State.setCell_kept (c : CellId) (x : Cell) : (s.setCell c x).kept = s.kept := rfl
@[simp] theorem State.fillCell_kept (c : CellId) (x : CellContent) : (s.fillCell c x).kept = s.kept := rfl
@[simp] theorem State.freeCell_kept (c : CellId) : (s.freeCell c).kept = s.kept := rfl
@[simp] theorem State.setPort_kept (p : Port) (u : PortUnit) : (s.setPort p u).kept = s.kept := rfl
@[simp] theorem State.enqueue_kept (p : Port) (k : QueueClass) (f : CanFrame) : (s.enqueue p k f).kept = s.kept := rfl
@[simp] theorem State.offerTrunk_kept (k : QueueClass) (f : CanFrame) : (s.offerTrunk k f).kept = s.kept := rfl
@[simp] theorem State.offersComeFirst_kept : s.offersComeFirst.kept = s.kept := by
  obtain ⟨l, h⟩ := s.offersComeFirst_eq
  rw [h]
  rfl
@[simp] theorem State.mapSupply_kept (g : Supply → Supply) : (s.mapSupply g).kept = s.kept := rfl
@[simp] theorem State.startConversion_kept : (s.startConversion).kept = s.kept := rfl
@[simp] theorem State.withdrawGate_kept (f : FlowId) : (s.withdrawGate f).kept = s.kept := rfl
@[simp] theorem State.setSupply_kept (g : SupplySettings) : (s.setSupply g).kept = s.kept := rfl
@[simp] theorem State.queueAlert_kept (a : Alert) : (s.queueAlert a).kept = s.kept := rfl
@[simp] theorem State.removeAlert_kept (k : AlertKey) : (s.removeAlert k).kept = s.kept := rfl
@[simp] theorem State.dropHead_kept : (s.dropHead).kept = s.kept := rfl

@[simp] theorem kept_of_update (fl : Vector FlowCtx 16) : ({ s with flows := fl }).kept = s.kept := rfl
@[simp] theorem kept_of_engine (e : Option Slice) : ({ s with engine := e }).kept = s.kept := rfl
@[simp] theorem kept_of_mgmt (m : Responder) : ({ s with mgmt := m }).kept = s.kept := rfl
@[simp] theorem kept_of_alerts (a : AlertQueue) : ({ s with alerts := a }).kept = s.kept := rfl
@[simp] theorem kept_of_faults (a : FaultFlags) : ({ s with faults := a }).kept = s.kept := rfl


/-! ## Alerts, fault flags, queues, refusals -/

@[simp] theorem State.raiseFault_kept (k : FaultFlag) :
    (s.raiseFault k).kept = s.kept := by
  unfold State.raiseFault
  split <;> rfl

@[simp] theorem State.raiseIf_kept (b : Bool) (k : FaultFlag) :
    (s.raiseIf b k).kept = s.kept := by
  unfold State.raiseIf
  (repeat' split) <;> simp

@[simp] theorem State.offer_kept (p : Port) (k : QueueClass) (f : CanFrame) :
    (s.offer p k f).kept = s.kept := by
  unfold State.offer
  (repeat' split) <;> simp

@[simp] theorem State.refuse_kept (n : TargetId) (c : Byte) (r : Reason) (d : Byte) :
    (s.refuse n c r d).kept = s.kept := by
  simp [State.refuse]

@[simp] theorem State.gateRequest_kept (f : FlowId) :
    (s.gateRequest f).kept = s.kept := by
  unfold State.gateRequest
  dsimp only
  split <;> simp


/-! ## Cells and slices -/

@[simp] theorem State.freeFlowCells_kept (f : FlowId) :
    (s.freeFlowCells f).kept = s.kept := by
  simp [State.freeFlowCells, foldl_view State.kept State.freeCell State.freeCell_kept]

@[simp] theorem State.abandonFlowSlice_kept (f : FlowId) :
    (s.abandonFlowSlice f).kept = s.kept := by
  unfold State.abandonFlowSlice
  (repeat' split) <;> rfl

@[simp] theorem State.abandonImageSlice_kept (i : ImageId) :
    (s.abandonImageSlice i).kept = s.kept := by
  unfold State.abandonImageSlice
  (repeat' split) <;> rfl

@[simp] theorem State.beginFlowSlice_kept (f : FlowId) :
    (s.beginFlowSlice f).kept = s.kept := by
  unfold State.beginFlowSlice
  (repeat' split) <;> simp

@[simp] theorem State.beginImageSlice_kept (i : ImageId) :
    (s.beginImageSlice i).kept = s.kept := by
  simp [State.beginImageSlice]

@[simp] theorem State.beginSlice_kept (r : Requester) :
    (s.beginSlice r).kept = s.kept := by
  cases r <;> simp [State.beginSlice]

@[simp] theorem State.nextSlice_kept :
    (s.nextSlice).kept = s.kept := by
  unfold State.nextSlice
  (repeat' split) <;> simp

@[simp] theorem State.wakeEngine_kept (r : Requester) :
    (s.wakeEngine r).kept = s.kept := by
  unfold State.wakeEngine
  (repeat' split) <;> simp


/-! ## Flows: alerts, failures, endings -/

@[simp] theorem State.flowAlert_kept (f : FlowId) (h : HoldCauses) :
    (s.flowAlert f h).kept = s.kept := by
  unfold State.flowAlert
  (repeat' split) <;> simp

@[simp] theorem State.progressAlert_kept (f : FlowId) :
    (s.progressAlert f).kept = s.kept := by
  unfold State.progressAlert
  dsimp only
  split <;> simp

@[simp] theorem State.failFlow_kept (f : FlowId) (k : Condition) :
    (s.failFlow f k).kept = s.kept := by
  unfold State.failFlow
  dsimp only
  split <;> simp

@[simp] theorem State.countFailure_kept (f : FlowId) :
    (s.countFailure f).kept = s.kept := by
  unfold State.countFailure
  dsimp only
  split <;> simp

@[simp] theorem State.dropParcelWork_kept (f : FlowId) :
    (s.dropParcelWork f).kept = s.kept := by
  simp [State.dropParcelWork]

@[simp] theorem State.endBroken_kept (f : FlowId) (n : TargetId) (b : Bool) :
    (s.endBroken f n b).kept = s.kept := by
  simp [State.endBroken]

@[simp] theorem State.endSilently_kept (f : FlowId) (r : Option ParcelRecord) :
    (s.endSilently f r).kept = s.kept := by
  simp [State.endSilently]

@[simp] theorem State.dropGated_kept (f : FlowId) :
    (s.dropGated f).kept = s.kept := by
  simp [State.dropGated]

@[simp] theorem State.tableFault_kept (f : FlowId) (n : TargetId) (k : FaultFlag) (c : UpdateCode) :
    (s.tableFault f n k c).kept = s.kept := by
  cases c <;> simp [State.tableFault]


/-! ## The flow controller -/

@[simp] theorem State.countProgress_kept (f : FlowId) :
    (s.countProgress f).kept = s.kept := by
  unfold State.countProgress
  dsimp only
  (repeat' split) <;> simp

@[simp] theorem State.acceptBlock_kept (f : FlowId) (q : Byte) (n : Nat) :
    (s.acceptBlock f q n).kept = s.kept := by
  simp [State.acceptBlock]

@[simp] theorem State.finish_kept (f : FlowId) :
    (s.finish f).kept = s.kept := by
  simp [State.finish]

@[simp] theorem State.onPositive_kept (f : FlowId) (k : PendingKind) :
    (s.onPositive f k).kept = s.kept := by
  unfold State.onPositive
  (repeat' split) <;> simp

@[simp] theorem State.onRefusal_kept (f : FlowId) (k : PendingKind) :
    (s.onRefusal f k).kept = s.kept := by
  unfold State.onRefusal
  (repeat' split) <;> simp

@[simp] theorem State.onExpiry_kept (f : FlowId) (k : PendingKind) :
    (s.onExpiry f k).kept = s.kept := by
  unfold State.onExpiry
  (repeat' split) <;> simp

@[simp] theorem State.matchResponse_kept (f : FlowId) (p : PendingReq) (r : Response) :
    (s.matchResponse f p r).kept = s.kept := by
  unfold State.matchResponse
  (repeat' split) <;> simp

@[simp] theorem State.lateResponse_kept (f : FlowId) (r : Response) :
    (s.lateResponse f r).kept = s.kept := by
  unfold State.lateResponse
  (repeat' split) <;> simp

@[simp] theorem State.takeResponse_kept (f : FlowId) (r : Response) :
    (s.takeResponse f r).kept = s.kept := by
  unfold State.takeResponse
  (repeat' split) <;> simp

@[simp] theorem State.refusalEndsRecord_kept (f : FlowId) :
    (s.refusalEndsRecord f).kept = s.kept := by
  unfold State.refusalEndsRecord
  (repeat' split) <;> simp

@[simp] theorem State.targetRefusal_kept (n : TargetId) :
    (s.targetRefusal n).kept = s.kept := by
  unfold State.targetRefusal
  dsimp only
  split <;> simp

@[simp] theorem State.dialogueResponse_kept (n : TargetId) (x : CanFrame) :
    (s.dialogueResponse n x).kept = s.kept := by
  unfold State.dialogueResponse
  dsimp only
  (repeat' split) <;> simp

@[simp] theorem State.pendingExpiry_kept (f : FlowId) :
    (s.pendingExpiry f).kept = s.kept := by
  unfold State.pendingExpiry
  (repeat' split) <;> simp


/-! ## The parcel inspector -/

@[simp] theorem State.toSegment_kept (n : TargetId) (x : CanFrame) :
    (s.toSegment n x).kept = s.kept := by
  simp [State.toSegment]

@[simp] theorem State.replaceRecord_kept (f : FlowId) :
    (s.replaceRecord f).kept = s.kept := by
  unfold State.replaceRecord
  (repeat' split) <;> simp

@[simp] theorem State.otherDialogue_kept (f : FlowId) (n : TargetId) (x : CanFrame) :
    (s.otherDialogue f n x).kept = s.kept := by
  unfold State.otherDialogue
  (repeat' split) <;> simp

@[simp] theorem State.refuseFirst_kept (f : FlowId) (n : TargetId) (x : CanFrame) (r : Reason) (d : Byte) :
    (s.refuseFirst f n x r d).kept = s.kept := by
  simp [State.refuseFirst]

@[simp] theorem State.brokenFirst_kept (f : FlowId) (n : TargetId) (x : CanFrame) (c : UpdateCode) :
    (s.brokenFirst f n x c).kept = s.kept := by
  cases c <;> simp [State.brokenFirst]

@[simp] theorem State.earlyVerdict_kept (f : FlowId) (n : TargetId) (x : CanFrame) (v : Verdict) :
    (s.earlyVerdict f n x v).kept = s.kept := by
  simp [State.earlyVerdict]

@[simp] theorem State.forwardRequest_kept (f : FlowId) (n : TargetId) (x : CanFrame) (c : UpdateCode) (k : PendingKind) :
    (s.forwardRequest f n x c k).kept = s.kept := by
  unfold State.forwardRequest
  (repeat' split) <;> simp

@[simp] theorem State.gate_kept (f : FlowId) (n : TargetId) (x : CanFrame) (g : Gated) :
    (s.gate f n x g).kept = s.kept := by
  unfold State.gate
  (repeat' split) <;> simp

@[simp] theorem State.refuseFatal_kept (f : FlowId) (n : TargetId) (x : CanFrame) (r : Reason) (k : Condition) :
    (s.refuseFatal f n x r k).kept = s.kept := by
  simp [State.refuseFatal]

@[simp] theorem State.admitErase_kept (f : FlowId) (n : TargetId) (x : CanFrame) :
    (s.admitErase f n x).kept = s.kept := by
  unfold State.admitErase
  (repeat' split) <;> simp

@[simp] theorem State.admitOpen_kept (f : FlowId) (n : TargetId) (x : CanFrame) :
    (s.admitOpen f n x).kept = s.kept := by
  unfold State.admitOpen
  (repeat' split) <;> simp

@[simp] theorem State.admitActivate_kept (f : FlowId) (n : TargetId) (x : CanFrame) :
    (s.admitActivate f n x).kept = s.kept := by
  unfold State.admitActivate
  (repeat' split) <;> simp

@[simp] theorem State.passInspected_kept (f : FlowId) (n : TargetId) (x : CanFrame) (p : Inspected) :
    (s.passInspected f n x p).kept = s.kept := by
  unfold State.passInspected
  (repeat' split) <;> simp

@[simp] theorem State.takeInspected_kept (f : FlowId) (n : TargetId) (x : CanFrame) (p : Inspected) (d : FoldSpan) :
    (s.takeInspected f n x p d).kept = s.kept := by
  unfold State.takeInspected
  dsimp only
  (repeat' split) <;> simp

@[simp] theorem State.startInspected_kept (f : FlowId) (n : TargetId) (x : CanFrame) (k : Nat) (b : Bool) :
    (s.startInspected f n x k b).kept = s.kept := by
  simp [State.startInspected]

@[simp] theorem State.admitBlock_kept (f : FlowId) (n : TargetId) (x : CanFrame) :
    (s.admitBlock f n x).kept = s.kept := by
  unfold State.admitBlock
  (repeat' split) <;> simp

@[simp] theorem State.inspectedCarrier_kept (f : FlowId) (n : TargetId) (x : CanFrame) (p : Inspected) :
    (s.inspectedCarrier f n x p).kept = s.kept := by
  unfold State.inspectedCarrier
  dsimp only
  (repeat' split) <;> simp

@[simp] theorem State.admitSpecific_kept (f : FlowId) (n : TargetId) (x : CanFrame) (c : UpdateCode) :
    (s.admitSpecific f n x c).kept = s.kept := by
  cases c <;> simp [State.admitSpecific]

@[simp] theorem State.admit_kept (f : FlowId) (n : TargetId) (x : CanFrame) (c : UpdateCode) :
    (s.judgeAdmission f n x c).kept = s.kept := by
  unfold State.judgeAdmission
  dsimp only
  (repeat' split) <;> simp

@[simp] theorem State.recordFirst_kept (f : FlowId) (n : TargetId) (x : CanFrame) :
    (s.recordFirst f n x).kept = s.kept := by
  unfold State.recordFirst
  dsimp only
  split <;> simp

@[simp] theorem State.passingCarrier_kept (f : FlowId) (n : TargetId) (x : CanFrame) (a b : Nat) :
    (s.passingCarrier f n x a b).kept = s.kept := by
  unfold State.passingCarrier
  dsimp only
  (repeat' split) <;> simp

@[simp] theorem State.recordCarrier_kept (f : FlowId) (n : TargetId) (x : CanFrame) :
    (s.recordCarrier f n x).kept = s.kept := by
  unfold State.recordCarrier
  (repeat' split) <;> simp

@[simp] theorem State.recordTakes_kept (f : FlowId) (n : TargetId) (x : CanFrame) :
    (s.recordTakes f n x).kept = s.kept := by
  unfold State.recordTakes
  (repeat' split) <;> simp

@[simp] theorem State.gapExpiry_kept (f : FlowId) :
    (s.gapExpiry f).kept = s.kept := by
  unfold State.gapExpiry
  (repeat' split) <;> simp


/-! ## The trackers and the classifier -/

@[simp] theorem State.trackerFirst_kept (n : TargetId) (x : CanFrame) :
    (s.trackerFirst n x).kept = s.kept := by
  unfold State.trackerFirst
  (repeat' split) <;> simp

@[simp] theorem State.trackerCarrier_kept (n : TargetId) (x : CanFrame) :
    (s.trackerCarrier n x).kept = s.kept := by
  unfold State.trackerCarrier
  (repeat' split) <;> simp

@[simp] theorem State.trackerTakes_kept (n : TargetId) (x : CanFrame) :
    (s.trackerTakes n x).kept = s.kept := by
  unfold State.trackerTakes
  (repeat' split) <;> simp

@[simp] theorem State.joinRequests_kept (x : CanFrame) :
    (s.joinRequests x).kept = s.kept := by
  unfold State.joinRequests
  (repeat' split) <;> simp

@[simp] theorem State.managementFrame_kept (p : Port) (x : CanFrame) :
    (s.managementFrame p x).kept = s.kept := by
  unfold State.managementFrame
  (repeat' split) <;> simp

@[simp] theorem State.offerPlainTo_kept (x : CanFrame) (p : Port) : (State.offerPlainTo x s p).kept = s.kept := by
  cases p <;> simp [State.offerPlainTo]

@[simp] theorem State.offerPlain_kept (l : List Port) (x : CanFrame) :
    (s.offerPlain l x).kept = s.kept := by
  simp [State.offerPlain, foldl_view State.kept (State.offerPlainTo x) (fun s p => s.offerPlainTo_kept x p)]

theorem State.lookup_kept (p : Port) (i : CanId) (l : List RouteId) : (s.lookup p i l).1.kept = s.kept := by
  induction l generalizing s with
  | nil => rfl
  | cons n l ih =>
    unfold State.lookup
    (repeat' split) <;> simp [ih]

@[simp] theorem State.routeFrame_kept (p : Port) (x : CanFrame) :
    (s.routeFrame p x).kept = s.kept := by
  simp [State.routeFrame, State.lookup_kept]

@[simp] theorem State.classifierFault_kept (n : TargetId) :
    (s.classifierFault n).kept = s.kept := by
  unfold State.classifierFault
  dsimp only
  split <;> simp

@[simp] theorem State.dialogueRequest_kept (n : TargetId) (x : CanFrame) :
    (s.dialogueRequest n x).kept = s.kept := by
  unfold State.dialogueRequest
  (repeat' split) <;> simp

@[simp] theorem State.routingFrame_kept (p : Port) (x : CanFrame) :
    (s.routingFrame p x).kept = s.kept := by
  unfold State.routingFrame
  (repeat' split) <;> simp [foldl_view State.kept State.classifierFault State.classifierFault_kept]

@[simp] theorem State.classify_kept (p : Port) (x : CanFrame) :
    (s.classify p x).kept = s.kept := by
  unfold State.classify
  (repeat' split) <;> simp

@[simp] theorem State.arrival_kept (p : Port) (x : CanFrame) :
    (s.arrival p x).kept = s.kept := by
  unfold State.arrival
  (repeat' split) <;> simp


/-! ## The port units -/

@[simp] theorem State.receptionError_kept (p : Port) :
    (s.receptionError p).kept = s.kept := by
  unfold State.receptionError
  (repeat' split) <;> simp

@[simp] theorem State.attemptStart_kept (p : Port) :
    (s.attemptStart p).kept = s.kept := by
  unfold State.attemptStart
  (repeat' split) <;> simp

@[simp] theorem State.clearInFlight_kept (l : List QueuedFrame) :
    (s.clearInFlight l).kept = s.kept := by
  unfold State.clearInFlight
  split <;> rfl

@[simp] theorem State.transmissionSuccess_kept (p : Port) :
    (s.transmissionSuccess p).kept = s.kept := by
  unfold State.transmissionSuccess
  (repeat' split) <;> simp

@[simp] theorem State.loseWork_kept (f : FlowId) (n : TargetId) :
    (s.loseWork f n).kept = s.kept := by
  unfold State.loseWork
  (repeat' split) <;> simp

@[simp] theorem State.portReadsFlow_kept (p : Port) (f : FlowId) : (State.portReadsFlow p s f).kept = s.kept := by
  unfold State.portReadsFlow
  (repeat' split) <;> simp

@[simp] theorem State.emptyQueue_kept (p : Port) :
    (s.emptyQueue p).kept = s.kept := by
  simp [State.emptyQueue]

@[simp] theorem State.flowsAfterEmptying_kept (p : Port) :
    (s.flowsAfterEmptying p).kept = s.kept := by
  have h := foldl_view State.kept (State.portReadsFlow p) (fun s f => s.portReadsFlow_kept p f) allFlows s
  cases p
  · rfl
  all_goals exact h

@[simp] theorem State.dropReply_kept (p : Port) :
    (s.dropReply p).kept = s.kept := by
  unfold State.dropReply
  (repeat' split) <;> simp

@[simp] theorem State.enterOff_kept (p : Port) :
    (s.enterOff p).kept = s.kept := by
  simp [State.enterOff]

@[simp] theorem State.transmissionError_kept (p : Port) :
    (s.transmissionError p).kept = s.kept := by
  unfold State.transmissionError
  dsimp only
  (repeat' split) <;> simp

@[simp] theorem State.recoveryComplete_kept (p : Port) :
    (s.recoveryComplete p).kept = s.kept := by
  unfold State.recoveryComplete
  (repeat' split) <;> simp

@[simp] theorem State.restart_kept (p : Port) :
    (s.restart p).kept = s.kept := by
  unfold State.restart
  dsimp only
  split <;> simp


/-! ## The check engine: flow slices -/

@[simp] theorem State.releaseBlock_kept (f : FlowId) (n : TargetId) (p : Inspected) (x : CellContent) :
    (s.releaseBlock f n p x).kept = s.kept := by
  unfold State.releaseBlock
  dsimp only
  (repeat' split) <;> simp

@[simp] theorem State.mismatch_kept (f : FlowId) (n : TargetId) :
    (s.mismatch f n).kept = s.kept := by
  simp [State.mismatch]

@[simp] theorem State.compare_kept (f : FlowId) (n : TargetId) (p : Inspected) (x : CellContent) :
    (s.compare f n p x).kept = s.kept := by
  unfold State.compare
  dsimp only
  (repeat' split) <;> simp

@[simp] theorem State.flowSliceResult_kept (f : FlowId) (c : CellId) (x : Cell) :
    (s.flowSliceResult f c x).kept = s.kept := by
  unfold State.flowSliceResult
  dsimp only
  (repeat' split) <;> simp

@[simp] theorem State.flowSliceComplete_kept :
    (s.flowSliceComplete).kept = s.kept := by
  unfold State.flowSliceComplete
  (repeat' split) <;> simp


/-! ## The supply monitor -/

@[simp] theorem State.sampleTime_kept :
    (s.sampleTime).kept = s.kept := by
  unfold State.sampleTime
  dsimp only
  (repeat' split) <;> simp

@[simp] theorem State.supplyHold_kept (f : FlowId) :
    (s.supplyHold f).kept = s.kept := by
  unfold State.supplyHold
  dsimp only
  (repeat' split) <;> simp

@[simp] theorem State.supplyRelease_kept (f : FlowId) :
    (s.supplyRelease f).kept = s.kept := by
  simp [State.supplyRelease]

@[simp] theorem State.flowsAtSupplyChange_kept (a b : SupplyState) :
    (s.flowsAtSupplyChange a b).kept = s.kept := by
  unfold State.flowsAtSupplyChange
  (repeat' split) <;> simp [foldl_view State.kept State.supplyHold State.supplyHold_kept, foldl_view State.kept State.supplyRelease State.supplyRelease_kept]

@[simp] theorem State.changeSupply_kept (k : SupplyState) (v : Nat) :
    (s.changeSupply k v).kept = s.kept := by
  simp [State.changeSupply]

@[simp] theorem State.filter_kept (v : Nat) :
    (s.filter v).kept = s.kept := by
  unfold State.filter
  dsimp only
  (repeat' split) <;> simp

@[simp] theorem State.refuseGated_kept (f : FlowId) (n : TargetId) (g : Gated) (r : Reason) (d : Byte) :
    (s.refuseGated f n g r d).kept = s.kept := by
  simp [State.refuseGated]

@[simp] theorem State.forwardGated_kept (f : FlowId) (n : TargetId) (g : Gated) :
    (s.forwardGated f n g).kept = s.kept := by
  unfold State.forwardGated
  (repeat' split) <;> simp

@[simp] theorem State.gateAnswer_kept (v : Nat) (f : FlowId) : (State.gateAnswer v s f).kept = s.kept := by
  unfold State.gateAnswer
  (repeat' split) <;> simp

@[simp] theorem State.answerGates_kept (v : Nat) :
    (s.answerGates v).kept = s.kept := by
  simp [State.answerGates, foldl_view State.kept (State.gateAnswer v) (fun s f => s.gateAnswer_kept v f)]

@[simp] theorem State.nextConversion_kept :
    (s.nextConversion).kept = s.kept := by
  unfold State.nextConversion
  (repeat' split) <;> simp

@[simp] theorem State.conversionComplete_kept (raw : Nat) :
    (s.conversionComplete raw).kept = s.kept := by
  unfold State.conversionComplete
  dsimp only
  split <;> simp


/-! ## The responder -/

@[simp] theorem State.reply_kept (x : CanFrame) (a : Answer) :
    (s.reply x a).kept = s.kept := by
  unfold State.reply
  (repeat' split) <;> simp

@[simp] theorem State.requestWithoutTag_kept :
    (s.requestWithoutTag).kept = s.kept := by
  unfold State.requestWithoutTag
  (repeat' split) <;> simp

@[simp] theorem State.unknownRequest_kept :
    (s.unknownRequest).kept = s.kept := by
  unfold State.unknownRequest
  (repeat' split) <;> simp

@[simp] theorem State.replyEnqueue_kept :
    (s.replyEnqueue).kept = s.kept := by
  unfold State.replyEnqueue
  (repeat' split) <;> simp

@[simp] theorem State.alertMove_kept :
    (s.alertMove).kept = s.kept := by
  unfold State.alertMove
  (repeat' split) <;> simp

end Sys2Proof.Machine
end

