-- ==== Sys2Proof/Laws/Offers.lean ====
section
/-! SUPPORT. The frames an event offers to TRUNK (R162): what joining them keeps, that it ends with none left, and one lemma
for each way it goes on. -/

namespace Sys2Proof.Machine

/-! One theorem is checked after another: many at once pass the memory limit. -/

set_option Elab.async false

variable (s : State)

@[simp] theorem State.offer_offers (p : Port) (k : QueueClass) (f : CanFrame) : (s.offer p k f).offers = s.offers := by
  unfold State.offer
  split <;> rfl

@[simp] theorem State.offer_mgmt (p : Port) (k : QueueClass) (f : CanFrame) : (s.offer p k f).mgmt = s.mgmt := by
  unfold State.offer
  split <;> rfl

@[simp] theorem State.offer_alerts (p : Port) (k : QueueClass) (f : CanFrame) : (s.offer p k f).alerts = s.alerts := by
  unfold State.offer
  split <;> rfl

/-! ## One claim -/

/-- A frame the event offered joins or is dropped (R97, R156). -/
theorem State.offerJoins_cons {x : Offer} {rest : List Offer} (h : s.offers = x :: rest) :
    s.offerJoins = ({ s with offers := rest }).offer .trunk x.cls x.frame := by
  simp only [State.offerJoins, h]

theorem State.offerJoins_offers : s.offerJoins.offers = s.offers.tail := by
  unfold State.offerJoins
  split <;> simp_all

theorem State.offerJoins_mgmt : s.offerJoins.mgmt = s.mgmt := by
  unfold State.offerJoins
  split <;> simp

theorem State.offerJoins_alerts : s.offerJoins.alerts = s.alerts := by
  unfold State.offerJoins
  split <;> simp

@[simp] theorem State.replyEnqueue_offers : s.replyEnqueue.offers = s.offers := by
  unfold State.replyEnqueue
  (repeat' split) <;> rfl

@[simp] theorem State.replyEnqueue_alerts : s.replyEnqueue.alerts = s.alerts := by
  unfold State.replyEnqueue
  (repeat' split) <;> rfl

@[simp] theorem State.replyEnqueue_queue : s.replyEnqueue.mgmt.queue = s.mgmt.queue := by
  unfold State.replyEnqueue
  (repeat' split) <;> rfl

theorem State.replyEnqueue_slot (h : s.replyReady = true) : s.replyEnqueue.mgmt.slot = none := by
  obtain ⟨hs, hr⟩ := Bool.and_eq_true_iff.1 h
  obtain ⟨frame, hf⟩ := Option.isSome_iff_exists.1 hs
  simp only [State.replyEnqueue, hf, hr, if_true, State.enqueue_mgmt]

@[simp] theorem State.alertMove_offers : s.alertMove.offers = s.offers := by
  unfold State.alertMove
  (repeat' split) <;> rfl

@[simp] theorem State.alertMove_mgmt : s.alertMove.mgmt = s.mgmt := by
  unfold State.alertMove
  (repeat' split) <;> rfl

theorem State.alertMove_inFlight (h : s.alertReady = true) : s.alertMove.alerts.inFlight = true := by
  have h2 := h
  simp only [State.alertReady, Bool.and_eq_true] at h2
  cases he : s.alerts.entries with
  | nil => simp [he] at h2
  | cons a rest => simp only [State.alertMove, he, h, if_true, State.enqueue_alerts]

/-- The claims: the next offered frame, and a reply and an alert that can move. -/
theorem State.mem_trunkClaims {c : TrunkClaim} :
    c ∈ s.trunkClaims ↔ c = .offer ∨ (c = .reply ∧ s.replyReady = true) ∨ (c = .alert ∧ s.alertClaims = true) := by
  unfold State.trunkClaims
  cases s.replyReady <;> cases s.alertClaims <;> simp

/-- An alert that claims a slot can move. -/
theorem State.alertReady_of_claims (h : s.alertClaims = true) : s.alertReady = true := (Bool.and_eq_true_iff.1 h).1

/-! ## What is still to come -/

/-- The offered frames, a reply and an alert that can still come between them. -/
def State.offerBound : Nat := s.offers.length + s.mgmt.slot.isSome.toNat + (!s.alerts.inFlight).toNat

theorem State.offerBound_le : s.offerBound ≤ s.offers.length + 2 := by
  have h1 := Bool.toNat_le s.mgmt.slot.isSome
  have h2 := Bool.toNat_le (!s.alerts.inFlight)
  unfold State.offerBound
  omega

theorem State.length_le_offerBound : s.offers.length ≤ s.offerBound := by
  unfold State.offerBound
  omega

/-- Each claim that is taken leaves less to come. -/
theorem State.takeClaim_offerBound {c : TrunkClaim} (hc : c ∈ s.trunkClaims) (h : s.offers ≠ []) :
    (s.takeClaim c).offerBound < s.offerBound := by
  unfold State.offerBound
  rcases s.mem_trunkClaims.1 hc with rfl | ⟨rfl, hr⟩ | ⟨rfl, ha⟩
  · have hp := List.length_pos_iff.2 h
    simp only [State.takeClaim, State.offerJoins_offers, State.offerJoins_mgmt, State.offerJoins_alerts,
      List.length_tail]
    omega
  · have hs : s.mgmt.slot.isSome = true := (Bool.and_eq_true_iff.1 hr).1
    simp [State.takeClaim, s.replyEnqueue_slot hr, hs]
  · replace ha := s.alertReady_of_claims ha
    have hi : s.alerts.inFlight = false := by
      have h2 := ha
      simp only [State.alertReady, Bool.and_eq_true] at h2
      simpa using h2.1.2
    simp [State.takeClaim, s.alertMove_inFlight ha, hi]

/-- Where the order does not decide, the next offered frame joins. -/
theorem State.trunkTakesOne_free (h : s.contested = false) : s.trunkTakesOne = s.offerJoins := by
  simp [State.trunkTakesOne, h]

/-- Where the order decides, one of the claims is taken, chosen freely (R162). -/
theorem State.trunkTakesOne_contested (h : s.contested = true) :
    ∃ c ∈ s.trunkClaims, s.trunkTakesOne = ({ s with freeCount := s.freeCount + 1 }).takeClaim c := by
  have hp : 0 < s.trunkClaims.length := by simp [State.trunkClaims]
  have hi := Nat.mod_lt (Config.firstTaken s.freeCount) hp
  refine ⟨_, List.getElem_mem hi, ?_⟩
  simp only [State.trunkTakesOne, h, if_true, List.getElem?_eq_getElem hi]

theorem State.trunkTakesOne_offerBound (h : s.offers ≠ []) : s.trunkTakesOne.offerBound < s.offerBound := by
  cases hc : s.contested
  · rw [s.trunkTakesOne_free hc]
    exact s.takeClaim_offerBound (c := .offer) (s.mem_trunkClaims.2 (Or.inl rfl)) h
  · obtain ⟨c, hm, he⟩ := s.trunkTakesOne_contested hc
    rw [he]
    exact ({ s with freeCount := s.freeCount + 1 } : State).takeClaim_offerBound hm h

/-! ## The end of an event -/

theorem State.trunkTakesFor_nil (h : s.offers = []) (n : Nat) : State.trunkTakesFor n s = s := by
  cases n with
  | zero => rfl
  | succ n => simp [State.trunkTakesFor, h]

/-- With fuel for what is still to come no more fuel changes anything, and no frame is left. -/
theorem State.trunkTakesFor_enough (n : Nat) : ∀ s : State, s.offerBound ≤ n → ∀ m, n ≤ m →
    State.trunkTakesFor m s = State.trunkTakesFor n s ∧ (State.trunkTakesFor n s).offers = [] := by
  induction n with
  | zero =>
    intro s hb m _
    have h0 : s.offers = [] := List.length_eq_zero_iff.1 (by have := s.length_le_offerBound; omega)
    simp [s.trunkTakesFor_nil h0, h0]
  | succ n ih =>
    intro s hb m hm
    by_cases h : s.offers = []
    · simp [s.trunkTakesFor_nil h, h]
    · obtain ⟨k, rfl⟩ : ∃ k, m = k + 1 := ⟨m - 1, by omega⟩
      have he : s.offers.isEmpty = false := by simpa using h
      simp only [State.trunkTakesFor, he, Bool.false_eq_true, if_false]
      exact ih _ (by have := s.trunkTakesOne_offerBound h; omega) k (by omega)

/-- An event that offered nothing ends as it is. -/
@[simp] theorem State.trunkTakes_nil (h : s.offers = []) : s.trunkTakes = s := s.trunkTakesFor_nil h _

/-- After an event no offered frame is left. -/
@[simp] theorem State.trunkTakes_offers : s.trunkTakes.offers = [] :=
  (State.trunkTakesFor_enough _ s s.offerBound_le _ (Nat.le_refl _)).2

/-- While a frame is offered, the end of the event is one claim and what follows it. -/
theorem State.trunkTakes_cons (h : s.offers ≠ []) : s.trunkTakes = s.trunkTakesOne.trunkTakes := by
  have hlt := s.trunkTakesOne_offerBound h
  have hle := s.offerBound_le
  have e1 := (State.trunkTakesFor_enough s.trunkTakesOne.offerBound s.trunkTakesOne (Nat.le_refl _)
    (s.offers.length + 1) (by omega)).1
  have e2 := (State.trunkTakesFor_enough s.trunkTakesOne.offerBound s.trunkTakesOne (Nat.le_refl _)
    (s.trunkTakesOne.offers.length + 2) s.trunkTakesOne.offerBound_le).1
  have he : s.offers.isEmpty = false := by simpa using h
  unfold State.trunkTakes
  rw [e2, ← e1]
  simp [State.trunkTakesFor, he]

/-- Where the order does not decide, the next offered frame joins or is dropped, and the others follow (R97, R156). -/
theorem State.trunkTakes_free {x : Offer} {rest : List Offer} (h : s.offers = x :: rest)
    (hc : s.contested = false) :
    s.trunkTakes = (({ s with offers := rest }).offer .trunk x.cls x.frame).trunkTakes := by
  rw [s.trunkTakes_cons (by simp [h]), s.trunkTakesOne_free hc, s.offerJoins_cons h]

/-- The one frame an event offered joins where the order does not decide (R97, R156). -/
theorem State.trunkTakes_one {x : Offer} (h : s.offers = [x]) (hc : s.contested = false) :
    s.trunkTakes = ({ s with offers := [] }).offer .trunk x.cls x.frame := by
  rw [s.trunkTakes_free h hc, State.trunkTakes_nil _ (by simp)]

/-- Where no reply and no alert can move the order does not decide. -/
theorem State.contested_quiet (hr : s.replyReady = false) (ha : s.alertReady = false) : s.contested = false := by
  simp [State.contested, State.trunkClaims, State.alertClaims, hr, ha]

/-- What every claim keeps, the taking of an offered frame and the count of free choices too, the end of an event keeps. -/
theorem State.trunkTakes_keeps (p : State → Prop) (act : ∀ u c, p u → p (State.takeClaim u c))
    (count : ∀ u k, p u → p { u with freeCount := k }) (h : p s) : p s.trunkTakes := by
  have once : ∀ u, p u → p (State.trunkTakesOne u) := by
    intro u hu
    unfold State.trunkTakesOne
    split
    · split
      · exact act _ _ (count u _ hu)
      · exact hu
    · exact act u .offer hu
  have many : ∀ n u, p u → p (State.trunkTakesFor n u) := by
    intro n
    induction n with
    | zero => exact fun u hu => hu
    | succ n ih =>
      intro u hu
      unfold State.trunkTakesFor
      split
      · exact hu
      · exact ih _ (once u hu)
  exact many _ s h

/-- The request queue is as it was. -/
@[simp] theorem State.trunkTakes_queue : s.trunkTakes.mgmt.queue = s.mgmt.queue := by
  refine s.trunkTakes_keeps (fun u => u.mgmt.queue = s.mgmt.queue) (fun u c h => ?_) (fun u k h => h) rfl
  cases c <;> simp [State.takeClaim, State.offerJoins_mgmt, h]

/-! ## What is offered -/

/-- A refusal is offered after what the event offered before it (R97). -/
theorem State.refuse_offers (n : TargetId) (c : Byte) (r : Reason) (d : Byte) :
    (s.refuse n c r d).offers = s.offers ++ [⟨.generated .refusal, refusalFrame (s.target n) c r d, false⟩] := rfl

/-! ## A plain frame -/

/-- A port unit written as it stands changes nothing. -/
theorem State.setPort_self (p : Port) : s.setPort p (s.port p) = s := by
  cases p <;> rfl

/-- An offer of a plain frame to a port, as one update of the port (R143, R156). -/
theorem State.offer_eq (p : Port) (f : CanFrame) : s.offer p .plain f =
    s.setPort p
      (if s.room p .plain then { s.port p with queue := insertByKey ⟨f, .plain, false⟩ (s.port p).queue }
        else s.port p) := by
  unfold State.offer
  split
  · rfl
  · rw [s.setPort_self]

/-- A port of the egress set is offered its copy, another one is left. -/
theorem State.offer_if (e : Bool) (p : Port) (f : CanFrame) : (if e then s.offer p .plain f else s) =
    s.setPort p
      (if e && s.room p .plain then { s.port p with queue := insertByKey ⟨f, .plain, false⟩ (s.port p).queue }
        else s.port p) := by
  cases e
  · simp [s.setPort_self]
  · simp [s.offer_eq]

/-- A plain frame offered to the ports of an egress set (R143). -/
theorem State.offerPlain_eq (egress : Port → Bool) (f : CanFrame) (h : s.offers = []) :
    s.offerPlain (allPorts.filter egress) f = OfferedInEvent s egress f := by
  have hf : s.offerPlain (allPorts.filter egress) f =
      allPorts.foldl (fun u p => if egress p then u.offerPlainTo f p else u) s := by
    rw [State.offerPlain, List.foldl_filter]
  rw [hf]
  have h0 : s = { s with offers := [] } := by rw [← h]
  simp only [allPorts, List.foldl_cons, List.foldl_nil, State.offerPlainTo, State.offer_if]
  unfold OfferedInEvent OfferedTo
  rw [h0]
  cases ht : egress .trunk <;>
    simp only [Bool.false_eq_true, if_false, if_true, State.offerTrunk, List.nil_append] <;> rfl
/-- Where no reply and no alert can move, the copies of a plain frame join or are dropped, each by its own room (R143). -/
theorem offeredInEvent_quiet (egress : Port → Bool) (f : CanFrame) (h : s.offers = []) (hr : s.replyReady = false)
    (ha : s.alertReady = false) : (OfferedInEvent s egress f).trunkTakes = OfferedTo s egress f := by
  have hq : (OfferedInEvent s egress f).contested = false :=
    State.contested_quiet _ (show s.replyReady = false from hr) (show s.alertReady = false from ha)
  have h0 : s = { s with offers := [] } := by rw [← h]
  cases ht : egress .trunk
  · rw [State.trunkTakes_nil _ (by simp [OfferedInEvent, ht])]
    rw [h0]
    simp only [OfferedInEvent, OfferedTo, ht]
    rfl
  · rw [State.trunkTakes_one _ (x := ⟨.plain, f, false⟩) (by simp [OfferedInEvent, ht]) hq, State.offer_eq, h0]
    simp only [OfferedInEvent, OfferedTo, ht]
    rfl

end Sys2Proof.Machine
end

