-- ==== Sys2Proof/Laws/AtOnce.lean ====
section
/-! SUPPORT. What the part does at once (R160, R161, R168): when nothing is due, and what is due after it. -/

namespace Sys2Proof.Machine

/-! One theorem is checked after another: many at once pass the memory limit. -/

set_option Elab.async false

variable (s : State)

/-- Nothing is due at once exactly when no frame is to be taken and no reply and no alert has room. -/
theorem State.atOnce_eq_nil : s.atOnce = [] ↔ s.nextFrame = none ∧ s.replyReady = false ∧ s.alertReady = false := by
  unfold State.atOnce
  cases s.nextFrame <;> cases s.replyReady <;> cases s.alertReady <;> simp

/-- A running state has nothing due at once, and a state out of reset, between events, with nothing due is running. -/
theorem running_iff : Running s ↔ s.resetHeld = false ∧ s.offers = [] ∧ s.atOnce = [] := by
  rw [s.atOnce_eq_nil]
  have hn : s.nextFrame = none ↔ s.mgmt.queue = [] ∨ s.mgmt.slot ≠ none := by
    unfold State.nextFrame State.ready
    cases s.mgmt.slot <;> simp
  have hr : s.replyReady = false ↔ s.mgmt.slot = none ∨ s.room .trunk (.generated .reply) = false := by
    unfold State.replyReady
    cases s.mgmt.slot <;> simp
  have ha : s.alertReady = false ↔
      s.alerts.entries = [] ∨ s.alerts.inFlight = true ∨ s.room .trunk (.generated .alert) = false := by
    unfold State.alertReady
    cases s.alerts.entries <;> cases s.alerts.inFlight <;> simp
  rw [hn, hr, ha]
  exact ⟨fun h => ⟨h.1, h.2, h.3, h.4, h.5⟩, fun ⟨h1, h2, h3, h4, h5⟩ => ⟨h1, h2, h3, h4, h5⟩⟩

/-- With nothing due nothing is done. -/
theorem State.settleFor_of_nil (h : s.atOnce = []) (n : Nat) : State.settleFor n s = s := by
  have h1 : s.settleOnce = s := by simp only [State.settleOnce, h]
  induction n with
  | zero => rfl
  | succ n ih => rw [State.settleFor, h1, ih]

/-- A running state stays as it is. -/
theorem State.settle_of_running (h : Running s) : s.settle = s :=
  s.settleFor_of_nil ((running_iff s).1 h).2.2 _

/-! ## Settling keeps what each action keeps -/

/-- What every action that is due at once keeps, and the count of free choices too, is kept by settling. -/
theorem State.settle_keeps (p : State → Prop) (act : ∀ u a, p u → p (State.doAtOnce u a))
    (count : ∀ u k, p u → p { u with freeCount := k }) (h : p s) : p s.settle := by
  have once : ∀ u, p u → p (State.settleOnce u) := by
    intro u hu
    unfold State.settleOnce
    split
    · exact hu
    · exact act u _ hu
    · split
      · exact act _ _ (count u _ hu)
      · exact hu
  have many : ∀ n u, p u → p (State.settleFor n u) := by
    intro n
    induction n with
    | zero => exact fun u hu => hu
    | succ n ih => exact fun u hu => ih _ (once u hu)
  exact many _ s h

end Sys2Proof.Machine
end

