-- ==== Sys2Proof/Laws/Exec.lean ====
section
/-! SUPPORT. What a command does around its own effect: it advances the time, and while RESET is held nothing else. -/

namespace Sys2Proof.Machine

/-! One theorem is checked after another: many at once pass the memory limit. -/

set_option Elab.async false

variable (s : State) (t : Time) (p : Port)

/-- Out of reset an event's effect applies at its time. -/
theorem State.event_running (h : s.resetHeld = false) (f : State → State) : s.event t f = .next (f (s.advance t)) := by
  simp [State.event, h]

/-- While RESET is held an event changes only the time. -/
theorem State.event_held (h : s.resetHeld = true) (f : State → State) : s.event t f = .next (s.advance t) := by
  simp [State.event, h]

/-- While RESET is held an event from outside changes only the time. -/
theorem State.settledEvent_held (h : s.resetHeld = true) (f : State → State) :
    s.settledEvent t f = .next (s.advance t) := by
  simp [State.settledEvent, h]

/-- Out of reset an event from outside comes after what was due at once. -/
theorem State.settledEvent_released (h : s.resetHeld = false) (f : State → State) :
    s.settledEvent t f = .next (f (s.settle.advance t)) := by
  simp [State.settledEvent, h]

/-- Out of reset an event from outside finds nothing due at once, and its effect applies at its time. -/
theorem State.settledEvent_running (h : Running s) (f : State → State) :
    s.settledEvent t f = .next (f (s.advance t)) := by
  rw [s.settledEvent_released t h.released, s.settle_of_running h]

/-! ## Each command out of reset -/

theorem exec_frameArrival (h : Running s) (port : Port) (frame : CanFrame) :
    exec (.frameArrival t port frame) s = .next ((s.advance t).arrival port frame).trunkTakes := by
  rw [exec, execFrameArrival, s.settledEvent_running t h]

theorem exec_receptionError (h : Running s) :
    exec (.receptionError t p) s = .next ((s.advance t).receptionError p) := by
  rw [exec, execReceptionError, s.settledEvent_running t h]

theorem exec_transmissionAttemptStart (h : Running s) :
    exec (.transmissionAttemptStart t p) s = .next ((s.advance t).attemptStart p) := by
  rw [exec, execTransmissionAttemptStart, s.settledEvent_running t h]

theorem exec_transmissionSuccess (h : Running s) :
    exec (.transmissionSuccess t p) s = .next ((s.advance t).transmissionSuccess p) := by
  rw [exec, execTransmissionSuccess, s.settledEvent_running t h]

theorem exec_arbitrationLost (h : Running s) :
    exec (.arbitrationLost t p) s =
      .next ((s.advance t).setPort p { s.port p with queue := unmark (s.port p).queue }) := by
  rw [exec, execArbitrationLost, s.settledEvent_running t h]
  rfl

theorem exec_transmissionError (h : Running s) :
    exec (.transmissionError t p) s = .next ((s.advance t).transmissionError p).trunkTakes := by
  rw [exec, execTransmissionError, s.settledEvent_running t h]

theorem exec_recoveryComplete (h : Running s) :
    exec (.recoveryComplete t p) s = .next ((s.advance t).recoveryComplete p) := by
  rw [exec, execRecoveryComplete, s.settledEvent_running t h]

theorem exec_replyEnqueue (h : s.resetHeld = false) :
    exec (.replyEnqueue t) s = .next ((s.advance t).replyEnqueue) := by
  simp only [exec, execReplyEnqueue, State.event, h, Bool.false_eq_true, if_false]

theorem exec_alertMove (h : s.resetHeld = false) :
    exec (.alertMove t) s = .next ((s.advance t).alertMove) := by
  simp only [exec, execAlertMove, State.event, h, Bool.false_eq_true, if_false]

theorem exec_requestWithoutTag (h : s.resetHeld = false) :
    exec (.requestWithoutTag t) s = .next ((s.advance t).requestWithoutTag) := by
  simp only [exec, execRequestWithoutTag, State.event, h, Bool.false_eq_true, if_false]

theorem exec_unknown (h : s.resetHeld = false) :
    exec (.unknown t) s = .next ((s.advance t).unknownRequest) := by
  simp only [exec, execUnknown, State.event, h, Bool.false_eq_true, if_false]

theorem exec_status (h : s.resetHeld = false) :
    exec (.status t) s = .next ((s.advance t).takeRequest .status State.carryStatus) := by
  simp only [exec, execStatus, State.event, h, Bool.false_eq_true, if_false]

theorem exec_faultsClear (h : s.resetHeld = false) :
    exec (.faultsClear t) s = .next ((s.advance t).takeRequest .faultsClear State.carryFaultsClear) := by
  simp only [exec, execFaultsClear, State.event, h, Bool.false_eq_true, if_false]

theorem exec_portSet (h : s.resetHeld = false) :
    exec (.portSet t) s = .next ((s.advance t).takeRequest .portSet State.carryPortSet) := by
  simp only [exec, execPortSet, State.event, h, Bool.false_eq_true, if_false]

theorem exec_portRestart (h : s.resetHeld = false) :
    exec (.portRestart t) s = .next ((s.advance t).takeRequest .portRestart State.carryPortRestart) := by
  simp only [exec, execPortRestart, State.event, h, Bool.false_eq_true, if_false]

theorem exec_routeWrite (h : s.resetHeld = false) :
    exec (.routeWrite t) s = .next ((s.advance t).takeRequest .routeWrite State.carryRouteWrite) := by
  simp only [exec, execRouteWrite, State.event, h, Bool.false_eq_true, if_false]

theorem exec_routeRead (h : s.resetHeld = false) :
    exec (.routeRead t) s = .next ((s.advance t).takeRequest .routeRead State.carryRouteRead) := by
  simp only [exec, execRouteRead, State.event, h, Bool.false_eq_true, if_false]

theorem exec_routingEnable (h : s.resetHeld = false) :
    exec (.routingEnable t) s = .next ((s.advance t).takeRequest .routingEnable State.carryRoutingEnable) := by
  simp only [exec, execRoutingEnable, State.event, h, Bool.false_eq_true, if_false]

theorem exec_targetWrite (h : s.resetHeld = false) :
    exec (.targetWrite t) s = .next ((s.advance t).takeRequest .targetWrite State.carryTargetWrite) := by
  simp only [exec, execTargetWrite, State.event, h, Bool.false_eq_true, if_false]

theorem exec_targetRead (h : s.resetHeld = false) :
    exec (.targetRead t) s = .next ((s.advance t).takeRequest .targetRead State.carryTargetRead) := by
  simp only [exec, execTargetRead, State.event, h, Bool.false_eq_true, if_false]

theorem exec_imageBegin (h : s.resetHeld = false) :
    exec (.imageBegin t) s = .next ((s.advance t).takeRequest .imageBegin State.carryImageBegin) := by
  simp only [exec, execImageBegin, State.event, h, Bool.false_eq_true, if_false]

theorem exec_imageRegion (h : s.resetHeld = false) :
    exec (.imageRegion t) s = .next ((s.advance t).takeRequest .imageRegion State.carryImageRegion) := by
  simp only [exec, execImageRegion, State.event, h, Bool.false_eq_true, if_false]

theorem exec_imageChecks (h : s.resetHeld = false) :
    exec (.imageChecks t) s = .next ((s.advance t).takeRequest .imageChecks State.carryImageChecks) := by
  simp only [exec, execImageChecks, State.event, h, Bool.false_eq_true, if_false]

theorem exec_imageEnd (h : s.resetHeld = false) :
    exec (.imageEnd t) s = .next ((s.advance t).takeRequest .imageEnd State.carryImageEnd) := by
  simp only [exec, execImageEnd, State.event, h, Bool.false_eq_true, if_false]

theorem exec_imageDiscard (h : s.resetHeld = false) :
    exec (.imageDiscard t) s = .next ((s.advance t).takeRequest .imageDiscard State.carryImageDiscard) := by
  simp only [exec, execImageDiscard, State.event, h, Bool.false_eq_true, if_false]

theorem exec_imageQuery (h : s.resetHeld = false) :
    exec (.imageQuery t) s = .next ((s.advance t).takeRequest .imageQuery State.carryImageQuery) := by
  simp only [exec, execImageQuery, State.event, h, Bool.false_eq_true, if_false]

theorem exec_windowOpen (h : s.resetHeld = false) :
    exec (.windowOpen t) s = .next ((s.advance t).takeRequest .windowOpen State.carryWindowOpen) := by
  simp only [exec, execWindowOpen, State.event, h, Bool.false_eq_true, if_false]

theorem exec_windowRenew (h : s.resetHeld = false) :
    exec (.windowRenew t) s = .next ((s.advance t).takeRequest .windowRenew State.carryWindowRenew) := by
  simp only [exec, execWindowRenew, State.event, h, Bool.false_eq_true, if_false]

theorem exec_windowClose (h : s.resetHeld = false) :
    exec (.windowClose t) s = .next ((s.advance t).takeRequest .windowClose State.carryWindowClose) := by
  simp only [exec, execWindowClose, State.event, h, Bool.false_eq_true, if_false]

theorem exec_flowBind (h : s.resetHeld = false) :
    exec (.flowBind t) s = .next ((s.advance t).takeRequest .flowBind State.carryFlowBind) := by
  simp only [exec, execFlowBind, State.event, h, Bool.false_eq_true, if_false]

theorem exec_flowRelease (h : s.resetHeld = false) :
    exec (.flowRelease t) s = .next ((s.advance t).takeRequest .flowRelease State.carryFlowRelease) := by
  simp only [exec, execFlowRelease, State.event, h, Bool.false_eq_true, if_false]

theorem exec_flowHold (h : s.resetHeld = false) :
    exec (.flowHold t) s = .next ((s.advance t).takeRequest .flowHold State.carryFlowHold) := by
  simp only [exec, execFlowHold, State.event, h, Bool.false_eq_true, if_false]

theorem exec_flowResume (h : s.resetHeld = false) :
    exec (.flowResume t) s = .next ((s.advance t).takeRequest .flowResume State.carryFlowResume) := by
  simp only [exec, execFlowResume, State.event, h, Bool.false_eq_true, if_false]

theorem exec_flowQuery (h : s.resetHeld = false) :
    exec (.flowQuery t) s = .next ((s.advance t).takeRequest .flowQuery State.carryFlowQuery) := by
  simp only [exec, execFlowQuery, State.event, h, Bool.false_eq_true, if_false]

theorem exec_supplySet (h : s.resetHeld = false) :
    exec (.supplySet t) s = .next ((s.advance t).takeRequest .supplySet State.carrySupplySet) := by
  simp only [exec, execSupplySet, State.event, h, Bool.false_eq_true, if_false]

theorem exec_supplyQuery (h : s.resetHeld = false) :
    exec (.supplyQuery t) s = .next ((s.advance t).takeRequest .supplyQuery State.carrySupplyQuery) := by
  simp only [exec, execSupplyQuery, State.event, h, Bool.false_eq_true, if_false]

theorem exec_pendingDeadlineExpiry (h : Running s) (f : FlowId) :
    exec (.pendingDeadlineExpiry t f) s = .next ((s.advance t).pendingExpiry f) := by
  rw [exec, execPendingDeadlineExpiry, s.settledEvent_running t h]

theorem exec_gapDeadlineExpiry (h : Running s) (f : FlowId) :
    exec (.gapDeadlineExpiry t f) s = .next ((s.advance t).gapExpiry f).trunkTakes := by
  rw [exec, execGapDeadlineExpiry, s.settledEvent_running t h]

theorem exec_windowExpiry (h : Running s) :
    exec (.windowExpiry t) s = .next ((s.advance t).windowExpiry) := by
  rw [exec, execWindowExpiry, s.settledEvent_running t h]

theorem exec_flowSliceComplete (h : Running s) :
    exec (.flowSliceComplete t) s = .next ((s.advance t).flowSliceComplete).trunkTakes := by
  rw [exec, execFlowSliceComplete, s.settledEvent_running t h]

theorem exec_imageSliceComplete (h : Running s) :
    exec (.imageSliceComplete t) s = .next ((s.advance t).imageSliceComplete) := by
  rw [exec, execImageSliceComplete, s.settledEvent_running t h]

theorem exec_sampleTime (h : Running s) :
    exec (.sampleTime t) s = .next ((s.advance t).sampleTime) := by
  rw [exec, execSampleTime, s.settledEvent_running t h]

theorem exec_conversionComplete (h : Running s) (raw : Nat) :
    exec (.conversionComplete t raw) s = .next ((s.advance t).conversionComplete raw).trunkTakes := by
  rw [exec, execConversionComplete, s.settledEvent_running t h]

/-! ## Every command -/

theorem State.advance_eq : s.advance t = { s with now := max s.now t } := rfl

/-- Every command but a reset and its release is an event: an effect at a time, of the state as it stands or, for an event
from outside, of the state in which nothing is due at once. -/
theorem exec_event (c : Instr) (hr : ∀ t, c ≠ .deviceReset t) (hl : ∀ t k, c ≠ .resetRelease t k) :
    ∃ t f, (∀ s, exec c s = State.event s t f) ∨ ∀ s, exec c s = State.settledEvent s t f := by
  cases c with
  | deviceReset t => exact absurd rfl (hr t)
  | resetRelease t k => exact absurd rfl (hl t k)
  | frameArrival t port frame => exact ⟨t, fun s => (s.arrival port frame).trunkTakes, Or.inr fun _ => rfl⟩
  | receptionError t p => exact ⟨t, fun s => s.receptionError p, Or.inr fun _ => rfl⟩
  | transmissionAttemptStart t p => exact ⟨t, fun s => s.attemptStart p, Or.inr fun _ => rfl⟩
  | transmissionSuccess t p => exact ⟨t, fun s => s.transmissionSuccess p, Or.inr fun _ => rfl⟩
  | arbitrationLost t p =>
    exact ⟨t, fun s => s.setPort p { s.port p with queue := unmark (s.port p).queue }, Or.inr fun _ => rfl⟩
  | transmissionError t p => exact ⟨t, fun s => (s.transmissionError p).trunkTakes, Or.inr fun _ => rfl⟩
  | recoveryComplete t p => exact ⟨t, fun s => s.recoveryComplete p, Or.inr fun _ => rfl⟩
  | replyEnqueue t => exact ⟨t, fun s => s.replyEnqueue, Or.inl fun _ => rfl⟩
  | alertMove t => exact ⟨t, fun s => s.alertMove, Or.inl fun _ => rfl⟩
  | requestWithoutTag t => exact ⟨t, fun s => s.requestWithoutTag, Or.inl fun _ => rfl⟩
  | unknown t => exact ⟨t, fun s => s.unknownRequest, Or.inl fun _ => rfl⟩
  | status t => exact ⟨t, fun s => s.takeRequest .status State.carryStatus, Or.inl fun _ => rfl⟩
  | faultsClear t => exact ⟨t, fun s => s.takeRequest .faultsClear State.carryFaultsClear, Or.inl fun _ => rfl⟩
  | portSet t => exact ⟨t, fun s => s.takeRequest .portSet State.carryPortSet, Or.inl fun _ => rfl⟩
  | portRestart t => exact ⟨t, fun s => s.takeRequest .portRestart State.carryPortRestart, Or.inl fun _ => rfl⟩
  | routeWrite t => exact ⟨t, fun s => s.takeRequest .routeWrite State.carryRouteWrite, Or.inl fun _ => rfl⟩
  | routeRead t => exact ⟨t, fun s => s.takeRequest .routeRead State.carryRouteRead, Or.inl fun _ => rfl⟩
  | routingEnable t => exact ⟨t, fun s => s.takeRequest .routingEnable State.carryRoutingEnable, Or.inl fun _ => rfl⟩
  | targetWrite t => exact ⟨t, fun s => s.takeRequest .targetWrite State.carryTargetWrite, Or.inl fun _ => rfl⟩
  | targetRead t => exact ⟨t, fun s => s.takeRequest .targetRead State.carryTargetRead, Or.inl fun _ => rfl⟩
  | imageBegin t => exact ⟨t, fun s => s.takeRequest .imageBegin State.carryImageBegin, Or.inl fun _ => rfl⟩
  | imageRegion t => exact ⟨t, fun s => s.takeRequest .imageRegion State.carryImageRegion, Or.inl fun _ => rfl⟩
  | imageChecks t => exact ⟨t, fun s => s.takeRequest .imageChecks State.carryImageChecks, Or.inl fun _ => rfl⟩
  | imageEnd t => exact ⟨t, fun s => s.takeRequest .imageEnd State.carryImageEnd, Or.inl fun _ => rfl⟩
  | imageDiscard t => exact ⟨t, fun s => s.takeRequest .imageDiscard State.carryImageDiscard, Or.inl fun _ => rfl⟩
  | imageQuery t => exact ⟨t, fun s => s.takeRequest .imageQuery State.carryImageQuery, Or.inl fun _ => rfl⟩
  | windowOpen t => exact ⟨t, fun s => s.takeRequest .windowOpen State.carryWindowOpen, Or.inl fun _ => rfl⟩
  | windowRenew t => exact ⟨t, fun s => s.takeRequest .windowRenew State.carryWindowRenew, Or.inl fun _ => rfl⟩
  | windowClose t => exact ⟨t, fun s => s.takeRequest .windowClose State.carryWindowClose, Or.inl fun _ => rfl⟩
  | flowBind t => exact ⟨t, fun s => s.takeRequest .flowBind State.carryFlowBind, Or.inl fun _ => rfl⟩
  | flowRelease t => exact ⟨t, fun s => s.takeRequest .flowRelease State.carryFlowRelease, Or.inl fun _ => rfl⟩
  | flowHold t => exact ⟨t, fun s => s.takeRequest .flowHold State.carryFlowHold, Or.inl fun _ => rfl⟩
  | flowResume t => exact ⟨t, fun s => s.takeRequest .flowResume State.carryFlowResume, Or.inl fun _ => rfl⟩
  | flowQuery t => exact ⟨t, fun s => s.takeRequest .flowQuery State.carryFlowQuery, Or.inl fun _ => rfl⟩
  | supplySet t => exact ⟨t, fun s => s.takeRequest .supplySet State.carrySupplySet, Or.inl fun _ => rfl⟩
  | supplyQuery t => exact ⟨t, fun s => s.takeRequest .supplyQuery State.carrySupplyQuery, Or.inl fun _ => rfl⟩
  | pendingDeadlineExpiry t f => exact ⟨t, fun s => s.pendingExpiry f, Or.inr fun _ => rfl⟩
  | gapDeadlineExpiry t f => exact ⟨t, fun s => (s.gapExpiry f).trunkTakes, Or.inr fun _ => rfl⟩
  | windowExpiry t => exact ⟨t, fun s => s.windowExpiry, Or.inr fun _ => rfl⟩
  | flowSliceComplete t => exact ⟨t, fun s => s.flowSliceComplete.trunkTakes, Or.inr fun _ => rfl⟩
  | imageSliceComplete t => exact ⟨t, fun s => s.imageSliceComplete, Or.inr fun _ => rfl⟩
  | sampleTime t => exact ⟨t, fun s => s.sampleTime, Or.inr fun _ => rfl⟩
  | conversionComplete t raw => exact ⟨t, fun s => (s.conversionComplete raw).trunkTakes, Or.inr fun _ => rfl⟩

/-- A port that carries traffic is judged from its counts (R152). -/
theorem PortUnit.judged_eq (u : PortUnit) (h : u.conf.carries = true) :
    u.judged = { u with conf := judgedState u.txErrors u.rxErrors } := by
  unfold PortUnit.judged judgedState
  cases hc : u.conf <;> simp_all [Confinement.carries]

/-- A port in OFF or RECOVERING is not judged (R152). -/
theorem PortUnit.judged_of_not_carries (u : PortUnit) (h : u.conf.carries = false) : u.judged = u := by
  unfold PortUnit.judged
  cases hc : u.conf <;> simp_all [Confinement.carries]

/-- The state in which the classifier takes a received frame. -/
theorem received_eq (h : (s.port p).conf.carries = true) :
    (s.advance t).setPort p (s.port p).received = Received s t p := by
  rw [PortUnit.received, PortUnit.judged_eq]
  · rfl
  · exact h

/-! ## The state an arrival finds -/
@[simp] theorem Received_pending : (Received s t p).pending = s.pending := rfl
@[simp] theorem Received_outside : (Received s t p).outside = s.outside := rfl
@[simp] theorem Received_offers : (Received s t p).offers = s.offers := rfl
@[simp] theorem Received_freeCount : (Received s t p).freeCount = s.freeCount := rfl
@[simp] theorem Received_resetHeld : (Received s t p).resetHeld = s.resetHeld := rfl
@[simp] theorem Received_strap : (Received s t p).strap = s.strap := rfl
@[simp] theorem Received_mode : (Received s t p).mode = s.mode := rfl
@[simp] theorem Received_defaultAction : (Received s t p).defaultAction = s.defaultAction := rfl
@[simp] theorem Received_routes : (Received s t p).routes = s.routes := rfl
@[simp] theorem Received_targets : (Received s t p).targets = s.targets := rfl
@[simp] theorem Received_images : (Received s t p).images = s.images := rfl
@[simp] theorem Received_checkList : (Received s t p).checkList = s.checkList := rfl
@[simp] theorem Received_extents : (Received s t p).extents = s.extents := rfl
@[simp] theorem Received_flows : (Received s t p).flows = s.flows := rfl
@[simp] theorem Received_cells : (Received s t p).cells = s.cells := rfl
@[simp] theorem Received_engine : (Received s t p).engine = s.engine := rfl
@[simp] theorem Received_window : (Received s t p).window = s.window := rfl
@[simp] theorem Received_supply : (Received s t p).supply = s.supply := rfl
@[simp] theorem Received_mgmt : (Received s t p).mgmt = s.mgmt := rfl
@[simp] theorem Received_alerts : (Received s t p).alerts = s.alerts := rfl
@[simp] theorem Received_faults : (Received s t p).faults = s.faults := rfl
@[simp] theorem Received_now : (Received s t p).now = max s.now t := rfl
@[simp] theorem Received_flow (g : FlowId) : (Received s t p).flow g = s.flow g := rfl
@[simp] theorem Received_target (n : TargetId) : (Received s t p).target n = s.target n := rfl
@[simp] theorem Received_route (n : RouteId) : (Received s t p).route n = s.route n := rfl
@[simp] theorem Received_image (i : ImageId) : (Received s t p).image i = s.image i := rfl
@[simp] theorem Received_cell (c : CellId) : (Received s t p).cell c = s.cell c := rfl
@[simp] theorem Received_imageOf (g : FlowId) : (Received s t p).imageOf g = s.imageOf g := rfl

/-! ## Attempts -/

/-- No attempt is in progress when no frame is marked. -/
theorem PortUnit.sendingFrame_none (u : PortUnit) (h : ∀ x ∈ u.queue, x.sending = false) : u.sendingFrame = none := by
  simp only [PortUnit.sendingFrame, List.find?_eq_none]
  intro x hx
  simp [h x hx]

/-- An attempt is in progress when a frame is marked. -/
theorem PortUnit.sendingFrame_isSome (u : PortUnit) : u.sendingFrame.isSome = true ↔ ∃ q ∈ u.queue, q.sending = true := by
  simp [PortUnit.sendingFrame]

end Sys2Proof.Machine
end

