-- ==== Sys2Proof/Laws/Choice.lean ====
section
/-! SUPPORT. What the searches over flows, targets, routes and cells find. -/

namespace Sys2Proof.Machine

/-! One theorem is checked after another: many at once pass the memory limit. -/

set_option Elab.async false

variable (s : State)

/-! ## The lists of numbers hold every number -/

@[simp] theorem mem_allFlows (f : FlowId) : f ∈ allFlows := by revert f; decide

@[simp] theorem mem_allTargets (n : TargetId) : n ∈ allTargets := by revert n; decide

@[simp] theorem mem_allImages (i : ImageId) : i ∈ allImages := by revert i; decide

@[simp] theorem mem_allPorts (p : Port) : p ∈ allPorts := by revert p; intro p; cases p <;> decide

@[simp] theorem mem_portsBut (p q : Port) : q ∈ portsBut p ↔ q ≠ p := by simp [portsBut]

/-! ## A search that has one answer -/

/-- A search finds the one member that passes its test. -/
theorem find?_eq_some_of_only {α : Type} {l : List α} {p : α → Bool} {a : α} (hm : a ∈ l) (ha : p a = true)
    (only : ∀ b ∈ l, p b = true → b = a) : l.find? p = some a := by
  cases h : l.find? p with
  | none => exact absurd ha (by simpa using List.find?_eq_none.1 h a hm)
  | some b => rw [only b (List.mem_of_find?_eq_some h) (List.find?_some h)]

/-! ## Bound flows -/

/-- A target without a bound flow (R19). -/
theorem boundFlow_none {n : TargetId} : s.boundFlow n = none ↔ Unbound s n := by
  simp only [State.boundFlow, Unbound, List.find?_eq_none, mem_allFlows, forall_true_left]
  constructor
  · intro h g hg ht
    exact h g (by simp [hg, ht])
  · intro h g hg
    simp only [Bool.and_eq_true, bne_iff_ne, beq_iff_eq] at hg
    exact h g hg.1 hg.2

/-- The one bound flow of a target (R19). -/
theorem boundFlow_some {f : FlowId} {n : TargetId} (h : BoundTo s f n) : s.boundFlow n = some f := by
  refine find?_eq_some_of_only (mem_allFlows f) (by simp [h.bound, h.target]) fun g _ hg => ?_
  simp only [Bool.and_eq_true, bne_iff_ne, beq_iff_eq] at hg
  exact h.only g hg.1 hg.2

/-- The bound flow depends on the flow contexts alone. -/
theorem boundFlow_congr {u : State} (h : u.flows = s.flows) (n : TargetId) : u.boundFlow n = s.boundFlow n := by
  simp only [State.boundFlow, State.flow, h]

/-! ## Targets by identifier -/

/-- The target a request identifier names (R20). -/
theorem requestTarget_some {frame : CanFrame} {n : TargetId} (h : RequestOf s frame n) :
    s.requestTarget frame.id = some n := by
  refine find?_eq_some_of_only (mem_allTargets n) (by simp [h.valid, h.id]) fun m _ hm => ?_
  simp only [Bool.and_eq_true, beq_iff_eq] at hm
  exact h.only m hm.1 hm.2

/-- No target has the identifier as its request identifier. -/
theorem requestTarget_none {i : CanId} (h : ∀ m, (s.target m).state = .valid → (s.target m).request ≠ i) :
    s.requestTarget i = none := by
  simp only [State.requestTarget, List.find?_eq_none, Bool.and_eq_true, beq_iff_eq, not_and]
  exact fun m _ hm => h m hm

/-- The target a response identifier names (R20). -/
theorem responseTarget_some {frame : CanFrame} {n : TargetId} (h : ResponseOf s frame n) :
    s.responseTarget frame.id = some n := by
  refine find?_eq_some_of_only (mem_allTargets n) (by simp [h.valid, h.id]) fun m _ hm => ?_
  simp only [Bool.and_eq_true, beq_iff_eq] at hm
  exact h.only m hm.1 hm.2

/-- No target has the identifier as its response identifier. -/
theorem responseTarget_none {i : CanId} (h : ∀ m, (s.target m).state = .valid → (s.target m).response ≠ i) :
    s.responseTarget i = none := by
  simp only [State.responseTarget, List.find?_eq_none, Bool.and_eq_true, beq_iff_eq, not_and]
  exact fun m _ hm => h m hm

/-- No VALID entry is damaged (R24). -/
theorem damagedTargets_nil (h : ∀ n, (s.target n).state = .valid → (s.target n).parityBad = false) :
    s.damagedTargets = [] := by
  simp only [State.damagedTargets, List.filter_eq_nil_iff, Bool.and_eq_true, beq_iff_eq, not_and, Bool.not_eq_true]
  exact fun n _ hn => h n hn

/-- One VALID entry is damaged (R24). -/
theorem damagedTargets_one {n : TargetId} (hv : (s.target n).state = .valid) (hb : (s.target n).parityBad = true)
    (h : ∀ m, m ≠ n → (s.target m).state = .valid → (s.target m).parityBad = false) : s.damagedTargets = [n] := by
  have e : s.damagedTargets = allTargets.filter fun m => m == n := by
    refine List.filter_congr fun m _ => ?_
    by_cases hm : m = n
    · subst hm; simp [hv, hb]
    · rw [beq_false_of_ne hm]
      cases hs : (s.target m).state
      · rfl
      · rw [h m hm hs]; rfl
  rw [e]
  clear e hv hb h
  revert n
  decide

/-! ## An arrival in ROUTING mode (C8) -/

/-- The classifier's two first questions are behind a frame that arrives in ROUTING mode (R142, R144). -/
theorem exec_routingArrival {p : Port} {frame : CanFrame} (t : Time) (h : RoutingArrival s p frame) :
    exec (.frameArrival t p frame) s = .next (State.trunkTakes
      (match s.requestTarget frame.id with
        | some n => if p = .trunk then (Received s t p).dialogueRequest n frame else Received s t p
        | none =>
          match s.responseTarget frame.id with
          | some n =>
            if p = (s.target n).segment.port then (Received s t p).dialogueResponse n frame else Received s t p
          | none => (Received s t p).routeFrame p frame)) := by
  rw [exec_frameArrival _ _ h.running]
  have hc : ((s.advance t).port p).conf.carries = true := h.carries
  have e : (s.advance t).arrival p frame = (Received s t p).classify p frame := by
    unfold State.arrival
    rw [if_pos hc, ← received_eq s t p h.carries]
    rfl
  rw [e]
  have hd : (Received s t p).damagedTargets = [] := damagedTargets_nil (Received s t p) h.sound
  unfold State.classify
  rw [if_neg (show frame.id ∉ managementIds (Received s t p).strap from h.notManagement),
    show (Received s t p).mode = .routing from h.routing]
  simp only [State.routingFrame, hd, List.isEmpty_nil, if_true]
  rfl

end Sys2Proof.Machine
end

