-- ==== Sys2Proof/Laws/Cells.lean ====
section
/-! SUPPORT. Freeing cells, abandoning slices and withdrawing gate requests: what each leaves as it was. -/

namespace Sys2Proof.Machine

/-! One theorem is checked after another: many at once pass the memory limit. -/

set_option Elab.async false

variable (s : State) (f : FlowId)

/-! ## Freeing cells (R101) -/

/-- Freeing a list of cells touches the cells alone. -/
theorem foldl_freeCell_eq (l : List CellId) :
    l.foldl State.freeCell s = { s with cells := (l.foldl State.freeCell s).cells } := by
  induction l generalizing s with
  | nil => rfl
  | cons c l ih => rw [List.foldl_cons, ih]; rfl

/-- A cell after a list of cells was freed. -/
theorem foldl_freeCell_cell (l : List CellId) (d : CellId) :
    (l.foldl State.freeCell s).cell d = if d ∈ l then { s.cell d with inUse := false } else s.cell d := by
  induction l generalizing s with
  | nil => simp
  | cons c l ih =>
    rw [List.foldl_cons, ih, State.cell_freeCell]
    by_cases hd : d = c
    · subst hd; simp
    · simp [hd]

/-- Freeing a flow's cells writes its context and the cells. -/
theorem State.freeFlowCells_eq :
    s.freeFlowCells f =
      { s with
        flows := s.flows.set f { s.flow f with fifo := [], held := none }
        cells := ((s.flow f).heldCells.foldl State.freeCell s).cells } :=
  congrArg (fun u : State => u.setFlow f { s.flow f with fifo := [], held := none }) (foldl_freeCell_eq s _)

/-- Every cell of the flow is free. -/
theorem State.freeFlowCells_cell (d : CellId) :
    (s.freeFlowCells f).cell d =
      if d ∈ (s.flow f).heldCells then { s.cell d with inUse := false } else s.cell d := by
  rw [State.freeFlowCells_eq]
  exact foldl_freeCell_cell s _ d

@[simp] theorem State.freeFlowCells_flow (g : FlowId) :
    (s.freeFlowCells f).flow g = if g = f then { s.flow f with fifo := [], held := none } else s.flow g := by
  rw [State.freeFlowCells_eq]
  exact s.flow_setFlow f g _

@[simp] theorem State.freeFlowCells_target (n : TargetId) : (s.freeFlowCells f).target n = s.target n := by
  rw [State.freeFlowCells_eq]; rfl

@[simp] theorem State.freeFlowCells_targets : (s.freeFlowCells f).targets = s.targets := by
  rw [State.freeFlowCells_eq]

@[simp] theorem State.freeFlowCells_ports : (s.freeFlowCells f).ports = s.ports := by
  rw [State.freeFlowCells_eq]

@[simp] theorem State.freeFlowCells_engine : (s.freeFlowCells f).engine = s.engine := by
  rw [State.freeFlowCells_eq]

@[simp] theorem State.freeFlowCells_supply : (s.freeFlowCells f).supply = s.supply := by
  rw [State.freeFlowCells_eq]

@[simp] theorem State.freeFlowCells_alerts : (s.freeFlowCells f).alerts = s.alerts := by
  rw [State.freeFlowCells_eq]

@[simp] theorem State.freeFlowCells_faults : (s.freeFlowCells f).faults = s.faults := by
  rw [State.freeFlowCells_eq]

/-! ## Abandoning a flow's slice (R113) -/

/-- Abandoning a flow's slice writes the engine alone. -/
theorem State.abandonFlowSlice_eq :
    s.abandonFlowSlice f =
      { s with
        engine := s.engine.map fun x =>
          match x.work with
          | .flow g _ _ => if g = f then { x with abandoned := true } else x
          | .image _ _ _ _ => x } := by
  unfold State.abandonFlowSlice
  rcases h : s.engine with _ | ⟨⟨g, c, r⟩ | ⟨i, b, n, e⟩, a⟩
  · simp only [Option.map_none]; rw [← h]
  · simp only [Option.map_some]
    split
    · rfl
    · rw [← h]
  · simp only [Option.map_some]; rw [← h]

@[simp] theorem State.abandonFlowSlice_flow (g : FlowId) : (s.abandonFlowSlice f).flow g = s.flow g := by
  rw [State.abandonFlowSlice_eq]; rfl

@[simp] theorem State.abandonFlowSlice_target (n : TargetId) : (s.abandonFlowSlice f).target n = s.target n := by
  rw [State.abandonFlowSlice_eq]; rfl

@[simp] theorem State.abandonFlowSlice_cell (c : CellId) : (s.abandonFlowSlice f).cell c = s.cell c := by
  rw [State.abandonFlowSlice_eq]; rfl

@[simp] theorem State.abandonFlowSlice_ports : (s.abandonFlowSlice f).ports = s.ports := by
  rw [State.abandonFlowSlice_eq]

@[simp] theorem State.abandonFlowSlice_targets : (s.abandonFlowSlice f).targets = s.targets := by
  rw [State.abandonFlowSlice_eq]

@[simp] theorem State.abandonFlowSlice_supply : (s.abandonFlowSlice f).supply = s.supply := by
  rw [State.abandonFlowSlice_eq]

@[simp] theorem State.abandonFlowSlice_alerts : (s.abandonFlowSlice f).alerts = s.alerts := by
  rw [State.abandonFlowSlice_eq]

/-! ## The pool (R99) -/

/-- The pool gives the lowest free cell to a flow below its quota. -/
theorem State.lowestFree_some (c : CellId) :
    s.lowestFree = some c ↔ (s.cell c).inUse = false ∧ ∀ d, d < c → (s.cell d).inUse = true := by
  have get (d : CellId) : s.cells.toList[d.val]'(by simp) = s.cell d := by
    simp [State.cell, Vector.get_eq_getElem]
  unfold State.lowestFree
  constructor
  · intro h
    split at h
    · rename_i k hk
      rw [List.findIdx?_eq_some_iff_getElem] at hk
      obtain ⟨hl, h1, h2⟩ := hk
      unfold below at h
      split at h
      · rename_i hlt
        obtain rfl := Option.some.inj h
        have e : s.cells.toList[k] = s.cell ⟨k, hlt⟩ := get ⟨k, hlt⟩
        refine ⟨by rw [e] at h1; simpa using h1, fun d hd => ?_⟩
        have := h2 d.val hd
        rw [get d] at this
        simpa using this
      · cases h
    · cases h
  · rintro ⟨h1, h2⟩
    have : s.cells.toList.findIdx? (fun x => !x.inUse) = some c.val := by
      rw [List.findIdx?_eq_some_iff_getElem]
      refine ⟨by simp, by rw [get c]; simp [h1], fun j hj => ?_⟩
      have := h2 ⟨j, by omega⟩ hj
      rw [get ⟨j, by omega⟩, this]
      decide
    rw [this]
    simp [below]

end Sys2Proof.Machine
end

