-- ==== Sys2Proof/Laws/Admission.lean ====
section
/-! SUPPORT. A first frame at a flow's record: what replacement leaves as it was, and the way to the admission checks. -/

namespace Sys2Proof.Machine

/-! One theorem is checked after another: many at once pass the memory limit. -/

set_option Elab.async false

variable (s : State) (f : FlowId)

/-- The fields of a flow that the admission checks read, and that replacement keeps. -/
structure Standing where
  state : FlowState
  binding : Option Binding
  openRegion : Option OpenRegion
  expectedSeq : Byte
  lastAccepted : Option Byte
  acceptedBlocks : Nat
  acceptedBytes : Nat
  pendingReq : Option PendingReq
  holds : HoldCauses
  failures : Nat
  deriving DecidableEq, Repr

/-- Those fields of a flow. -/
def FlowCtx.standing (c : FlowCtx) : Standing :=
  ⟨c.state, c.binding, c.openRegion, c.expectedSeq, c.lastAccepted, c.acceptedBlocks, c.acceptedBytes, c.pendingReq,
    c.holds, c.failures⟩

/-- Replacement keeps what the admission checks read of the flow (R73). -/
theorem State.replaceRecord_standing (g : FlowId) : ((s.replaceRecord f).flow g).standing = (s.flow g).standing := by
  unfold State.replaceRecord
  by_cases hg : g = f
  · subst hg
    split <;> simp [State.endSilently, State.dropParcelWork, State.dropGated, FlowCtx.standing]
  · split <;> simp [State.endSilently, State.dropParcelWork, State.dropGated, hg]

/-- Replacement leaves no record. -/
theorem State.replaceRecord_record : ((s.replaceRecord f).flow f).record = none := by
  unfold State.replaceRecord
  split <;> simp_all [State.endSilently, State.dropParcelWork, State.dropGated]

@[simp] theorem State.replaceRecord_target (n : TargetId) : (s.replaceRecord f).target n = s.target n := by
  unfold State.replaceRecord
  split <;> simp [State.endSilently, State.dropParcelWork, State.dropGated]

@[simp] theorem State.replaceRecord_ports : (s.replaceRecord f).ports = s.ports := by
  unfold State.replaceRecord
  split <;> simp [State.endSilently, State.dropParcelWork, State.dropGated]

@[simp] theorem State.replaceRecord_now : (s.replaceRecord f).now = s.now :=
  kept_field Kept.now (s.replaceRecord_kept f)

@[simp] theorem State.replaceRecord_images : (s.replaceRecord f).images = s.images :=
  kept_field Kept.images (s.replaceRecord_kept f)

@[simp] theorem State.replaceRecord_supplyState : (s.replaceRecord f).supply.state = s.supply.state := by
  unfold State.replaceRecord
  split <;> simp [State.endSilently, State.dropParcelWork, State.dropGated, State.withdrawGate, State.mapSupply]

@[simp] theorem State.replaceRecord_state : ((s.replaceRecord f).flow f).state = (s.flow f).state :=
  congrArg Standing.state (s.replaceRecord_standing f f)

@[simp] theorem State.replaceRecord_binding : ((s.replaceRecord f).flow f).binding = (s.flow f).binding :=
  congrArg Standing.binding (s.replaceRecord_standing f f)

@[simp] theorem State.replaceRecord_openRegion : ((s.replaceRecord f).flow f).openRegion = (s.flow f).openRegion :=
  congrArg Standing.openRegion (s.replaceRecord_standing f f)

@[simp] theorem State.replaceRecord_pendingReq : ((s.replaceRecord f).flow f).pendingReq = (s.flow f).pendingReq :=
  congrArg Standing.pendingReq (s.replaceRecord_standing f f)

@[simp] theorem State.replaceRecord_holds : ((s.replaceRecord f).flow f).holds = (s.flow f).holds :=
  congrArg Standing.holds (s.replaceRecord_standing f f)

@[simp] theorem State.replaceRecord_params : ((s.replaceRecord f).flow f).params = (s.flow f).params := by
  simp [FlowCtx.params]

@[simp] theorem State.replaceRecord_imageOf : (s.replaceRecord f).imageOf f = s.imageOf f := by
  simp [State.imageOf, State.image_eq]

/-- The BLOCK checks read what replacement keeps (R84). -/
@[simp] theorem State.replaceRecord_blockFinding (o : OpenRegion) (q : Byte) (n : Nat) :
    ((s.replaceRecord f).flow f).blockFinding o q n = (s.flow f).blockFinding o q n := by
  have h := s.replaceRecord_standing f f
  unfold FlowCtx.blockFinding
  rw [show ((s.replaceRecord f).flow f).expectedSeq = _ from congrArg Standing.expectedSeq h,
    show ((s.replaceRecord f).flow f).lastAccepted = _ from congrArg Standing.lastAccepted h,
    show ((s.replaceRecord f).flow f).acceptedBlocks = _ from congrArg Standing.acceptedBlocks h]
  rfl

/-- The request-specific checks read the same region states after replacement (R80). -/
@[simp] theorem State.replaceRecord_regionState (r : Nat) :
    ((s.replaceRecord f).flow f).regionState r = (s.flow f).regionState r := by simp [FlowCtx.regionState]

@[simp] theorem State.replaceRecord_allVerified :
    ((s.replaceRecord f).flow f).allVerified = (s.flow f).allVerified := by simp [FlowCtx.allVerified]

@[simp] theorem State.replaceRecord_openNumber :
    ((s.replaceRecord f).flow f).openNumber = (s.flow f).openNumber := by simp [FlowCtx.openNumber]

@[simp] theorem State.replaceRecord_rangeFinding (n : TargetId) (a l : Nat) :
    (s.replaceRecord f).rangeFinding f n a l = s.rangeFinding f n a l := by simp [State.rangeFinding]

/-- A dialogue request frame at a bound flow while the window is OPEN goes to the flow's record (R68). -/
theorem exec_recordArrival {s : State} {f : FlowId} (t : Time) {frame : CanFrame} {n : TargetId}
    (h : RecordArrival s frame f n) :
    exec (.frameArrival t .trunk frame) s = .next ((Received s t .trunk).recordTakes f n frame).trunkTakes := by
  rw [exec_routingArrival s t h.arrival, requestTarget_some s h.request]
  have hw : (Received s t .trunk).window.state = .opened := h.opened
  have hb : (Received s t .trunk).boundFlow n = some f :=
    boundFlow_some (Received s t .trunk) ⟨h.bound.1, h.bound.2, h.bound.3⟩
  simp only [if_true, State.dialogueRequest, hw, hb]

/-- The first frame of an update request at a flow's record goes to the admission checks (R68, R73, R74). -/
theorem exec_admission {s : State} {f : FlowId} (t : Time) {frame : CanFrame} {n : TargetId} {c : UpdateCode}
    (h : AdmissionArrival s frame f n) (hc : UpdateCode.ofByte (requestCode frame) = some c) :
    exec (.frameArrival t .trunk frame) s =
      .next (((Received s t .trunk).replaceRecord f).judgeAdmission f n frame c).trunkTakes := by
  rw [exec_recordArrival t ⟨h.arrival, h.request, h.bound, h.opened⟩]
  rcases h.first with hf | hf <;> simp [State.recordTakes, hf, State.recordFirst, hc]

/-- A refusal at admission, in the statements' words. -/
theorem refuseFirst_eq (u : State) (n : TargetId) (frame : CanFrame) (reason : Reason) (detail : Byte) :
    u.refuseFirst f n frame reason detail = RefusedFirst u f n frame reason detail := rfl

/-- An admissible request reaches its own checks (R76, R80). -/
theorem exec_admissible {s : State} {f : FlowId} (t : Time) {frame : CanFrame} {n : TargetId} {c : UpdateCode}
    (h : AdmissionArrival s frame f n) (a : Admissible s f frame c) :
    exec (.frameArrival t .trunk frame) s =
      .next (((Received s t .trunk).replaceRecord f).admitSpecific f n frame c).trunkTakes := by
  rw [exec_admission t h a.code]
  have hs : (Received s t .trunk).flow f = s.flow f := rfl
  have hk : (s.flow f).state ≠ .done ∧ (s.flow f).state ≠ .failed ∧ (s.flow f).state.takes c = true := by
    rcases a.takes with ⟨h1, h2⟩ | ⟨h1, h2⟩ <;> rw [h1] <;> rcases h2 with h2 | h2 | h2 <;> subst h2 <;> decide
  simp [State.judgeAdmission, hs, a.free, a.settled, hk, a.wellFormed, a.form]

end Sys2Proof.Machine
end

