-- ==== Sys2Proof/Laws/Carry.lean ====
section
/-! SUPPORT. What no request changes by being carried out (C9): the queues of the model, the time, RESET, the strap, and the
request queue and reply slot, which are the responder's own; and that settling leaves less to come at each action. -/

namespace Sys2Proof.Machine

/-! One theorem is checked after another: many at once pass the memory limit. -/

set_option Elab.async false

/-- What only the step, the responder and the reset change. -/
structure Outer where
  pending : List Instr
  outside : List Outside
  now : Time
  resetHeld : Bool
  strap : BitVec 3
  mgmt : Responder

/-- That part of a state. -/
def State.outer (s : State) : Outer := ⟨s.pending, s.outside, s.now, s.resetHeld, s.strap, s.mgmt⟩

variable (s : State)

/-! ## Plain updates -/

@[simp] theorem State.setFlow_outer (f : FlowId) (c : FlowCtx) : (s.setFlow f c).outer = s.outer := rfl
@[simp] theorem State.mapFlow_outer (f : FlowId) (g : FlowCtx → FlowCtx) : (s.mapFlow f g).outer = s.outer := rfl
@[simp] theorem State.setRecord_outer (f : FlowId) (r : Option ParcelRecord) : (s.setRecord f r).outer = s.outer := rfl
@[simp] theorem State.setVerdict_outer (f : FlowId) (v : Verdict) : (s.setVerdict f v).outer = s.outer := rfl
@[simp] theorem State.setTarget_outer (n : TargetId) (e : TargetEntry) : (s.setTarget n e).outer = s.outer := rfl
@[simp] theorem State.setTracker_outer (n : TargetId) (k : Tracker) : (s.setTracker n k).outer = s.outer := rfl
@[simp] theorem State.setRoute_outer (n : RouteId) (e : RouteEntry) : (s.setRoute n e).outer = s.outer := rfl
@[simp] theorem State.setImage_outer (i : ImageId) (r : ImageRecord) : (s.setImage i r).outer = s.outer := rfl
@[simp] theorem State.mapReferences_outer (i : ImageId) (g : Nat → Nat) : (s.mapReferences i g).outer = s.outer := rfl
@[simp] theorem State.freeCell_outer (c : CellId) : (s.freeCell c).outer = s.outer := rfl
@[simp] theorem State.setPort_outer (p : Port) (u : PortUnit) : (s.setPort p u).outer = s.outer := rfl
@[simp] theorem State.enqueue_outer (p : Port) (k : QueueClass) (f : CanFrame) : (s.enqueue p k f).outer = s.outer := rfl
@[simp] theorem State.offerTrunk_outer (k : QueueClass) (f : CanFrame) : (s.offerTrunk k f).outer = s.outer := rfl
@[simp] theorem State.offersComeFirst_outer : s.offersComeFirst.outer = s.outer := by
  obtain ⟨l, h⟩ := s.offersComeFirst_eq
  rw [h]
  rfl
@[simp] theorem State.withdrawGate_outer (f : FlowId) : (s.withdrawGate f).outer = s.outer := rfl
@[simp] theorem State.setSupply_outer (g : SupplySettings) : (s.setSupply g).outer = s.outer := rfl
@[simp] theorem State.queueAlert_outer (a : Alert) : (s.queueAlert a).outer = s.outer := rfl
@[simp] theorem State.removeAlert_outer (k : AlertKey) : (s.removeAlert k).outer = s.outer := rfl
@[simp] theorem State.setRenewal_outer (k : RenewalStep) : (s.setRenewal k).outer = s.outer := rfl
@[simp] theorem State.renew_outer : s.renew.outer = s.outer := rfl
@[simp] theorem State.bind_outer (f : FlowId) (n : TargetId) (i : ImageId) (q : FlowParams) :
    (s.bind f n i q).outer = s.outer := rfl
@[simp] theorem State.unbind_outer (b : Binding) : (s.unbind b).outer = s.outer := rfl

@[simp] theorem outer_of_faults (a : FaultFlags) : ({ s with faults := a } : State).outer = s.outer := rfl
@[simp] theorem outer_of_alerts (a : AlertQueue) : ({ s with alerts := a } : State).outer = s.outer := rfl
@[simp] theorem outer_of_engine (e : Option Slice) : ({ s with engine := e } : State).outer = s.outer := rfl
@[simp] theorem outer_of_window (w : Window) : ({ s with window := w } : State).outer = s.outer := rfl
@[simp] theorem outer_of_mode (m : PartMode) (d : DefaultAction) :
    ({ s with mode := m, defaultAction := d } : State).outer = s.outer := rfl
@[simp] theorem outer_of_extents (l : List ExtentEntry) : ({ s with extents := l } : State).outer = s.outer := rfl
@[simp] theorem outer_of_checkList (m : CheckMem) : ({ s with checkList := m } : State).outer = s.outer := rfl
@[simp] theorem outer_of_freeCount (k : Nat) : ({ s with freeCount := k } : State).outer = s.outer := rfl

/-! ## Shared operations -/

@[simp] theorem State.raiseFault_outer (k : FaultFlag) : (s.raiseFault k).outer = s.outer := by
  unfold State.raiseFault
  split <;> rfl

@[simp] theorem State.raiseIf_outer (b : Bool) (k : FaultFlag) : (s.raiseIf b k).outer = s.outer := by
  unfold State.raiseIf
  split <;> simp

@[simp] theorem State.offer_outer (p : Port) (k : QueueClass) (f : CanFrame) : (s.offer p k f).outer = s.outer := by
  unfold State.offer
  split <;> simp

@[simp] theorem State.refuse_outer (n : TargetId) (c : Byte) (r : Reason) (d : Byte) :
    (s.refuse n c r d).outer = s.outer := by simp [State.refuse]

@[simp] theorem State.freeFlowCells_outer (f : FlowId) : (s.freeFlowCells f).outer = s.outer := by
  simp [State.freeFlowCells, foldl_view State.outer State.freeCell State.freeCell_outer]

@[simp] theorem State.abandonFlowSlice_outer (f : FlowId) : (s.abandonFlowSlice f).outer = s.outer := by
  unfold State.abandonFlowSlice
  (repeat' split) <;> rfl

@[simp] theorem State.abandonImageSlice_outer (i : ImageId) : (s.abandonImageSlice i).outer = s.outer := by
  unfold State.abandonImageSlice
  (repeat' split) <;> rfl

@[simp] theorem State.beginSlice_outer (r : Requester) : (s.beginSlice r).outer = s.outer := by
  cases r with
  | flow f =>
    unfold State.beginSlice State.beginFlowSlice
    dsimp only
    split <;> rfl
  | image i => rfl

@[simp] theorem State.wakeEngine_outer (r : Requester) : (s.wakeEngine r).outer = s.outer := by
  unfold State.wakeEngine
  split <;> simp

@[simp] theorem State.flowAlert_outer (f : FlowId) (h : HoldCauses) : (s.flowAlert f h).outer = s.outer := by
  unfold State.flowAlert
  split <;> simp

@[simp] theorem State.failFlow_outer (f : FlowId) (k : Condition) : (s.failFlow f k).outer = s.outer := by
  unfold State.failFlow
  dsimp only
  split <;> simp

@[simp] theorem State.countFailure_outer (f : FlowId) : (s.countFailure f).outer = s.outer := by
  unfold State.countFailure
  dsimp only
  split <;> simp

@[simp] theorem State.endBroken_outer (f : FlowId) (n : TargetId) (b : Bool) :
    (s.endBroken f n b).outer = s.outer := by simp [State.endBroken, State.dropParcelWork]

@[simp] theorem State.loseWork_outer (f : FlowId) (n : TargetId) : (s.loseWork f n).outer = s.outer := by
  unfold State.loseWork
  split <;> simp [State.dropGated]

@[simp] theorem State.portReadsFlow_outer (p : Port) (f : FlowId) : (State.portReadsFlow p s f).outer = s.outer := by
  unfold State.portReadsFlow
  (repeat' split) <;> simp

@[simp] theorem State.emptyQueue_outer (p : Port) : (s.emptyQueue p).outer = s.outer := by
  unfold State.emptyQueue State.clearInFlight
  (repeat' split) <;> rfl

@[simp] theorem State.flowsAfterEmptying_outer (p : Port) : (s.flowsAfterEmptying p).outer = s.outer := by
  have h := foldl_view State.outer (State.portReadsFlow p) (fun s f => s.portReadsFlow_outer p f) allFlows s
  cases p
  · rfl
  all_goals exact h

@[simp] theorem State.restart_outer (p : Port) : (s.restart p).outer = s.outer := by
  unfold State.restart
  dsimp only
  split <;> simp

@[simp] theorem State.clearTrackers_outer : s.clearTrackers.outer = s.outer := by
  refine foldl_view State.outer State.clearTrackerOf (fun s f => ?_) allFlows s
  unfold State.clearTrackerOf
  (repeat' split) <;> simp

@[simp] theorem State.closeWindow_outer (cause : ClosureCause) : (s.closeWindow cause).outer = s.outer := by
  have h : ∀ (u : State) (f : FlowId), (u.clearRecordOf f).outer = u.outer := by
    intro u f
    unfold State.clearRecordOf
    split <;> simp
  simp [State.closeWindow, foldl_view State.outer State.clearRecordOf h,
    foldl_view State.outer (fun s f => State.failFlow s f cause.condition) (fun s f => s.failFlow_outer f _)]

@[simp] theorem State.releaseFlow_outer (f : FlowId) : (s.releaseFlow f).outer = s.outer := by
  unfold State.releaseFlow
  dsimp only
  split <;> simp

@[simp] theorem State.discard_outer (i : ImageId) : (s.discard i).outer = s.outer := by simp [State.discard]

/-! ## Requests -/

@[simp] theorem State.refused_outer (r : MgmtReason) : (s.refused r).1.outer = s.outer := rfl
@[simp] theorem State.done_outer (l : List Byte) : (s.done l).1.outer = s.outer := rfl

/-- A loading request keeps it when what it goes on with does (R28 to R31). -/
theorem State.loadRequest_outer (i : ImageId) (k : ImageState) (go : State → State × Answer)
    (h : (go s).1.outer = s.outer) : (s.loadRequest i k go).1.outer = s.outer := by
  unfold State.loadRequest
  (repeat' split) <;> simp [h]

/-- No request changes it (R160, R163). -/
theorem State.carry_outer (r : Request) (p : List Byte) : (State.carry r p s).1.outer = s.outer := by
  have write : ∀ (n : TargetId) (e : TargetEntry), (s.writeTarget n e).1.outer = s.outer := by
    intro n e
    unfold State.writeTarget
    dsimp only
    (repeat' split) <;> simp
  have bound : ∀ f n i q, (s.bindChecked f n i q).1.outer = s.outer := by
    intro f n i q
    unfold State.bindChecked
    dsimp only
    (repeat' split) <;> simp
  have begins : ∀ i k n c, (State.beginImage i k n c s).1.outer = s.outer := by
    intro i k n c
    unfold State.beginImage
    split <;> simp
  have region : ∀ i n g, (State.loadRegion i n g s).1.outer = s.outer := by
    intro i n g
    unfold State.loadRegion
    dsimp only
    (repeat' split) <;> simp
  have checks : ∀ i n l, (State.loadChecks i n l s).1.outer = s.outer := by
    intro i n l
    unfold State.loadChecks
    dsimp only
    split <;> simp
  have ends : ∀ i w n, (State.endImage i w n s).1.outer = s.outer := by
    intro i w n
    unfold State.endImage
    dsimp only
    split <;> simp
  cases r <;>
    simp only [State.carry, State.carryStatus, State.carryFaultsClear, State.carryPortSet, State.carryPortRestart,
      State.carryRouteWrite, State.carryRouteRead, State.carryRoutingEnable, State.carryTargetWrite,
      State.carryTargetRead, State.carryImageBegin, State.carryImageRegion, State.carryImageChecks,
      State.carryImageEnd, State.carryImageDiscard, State.carryImageQuery, State.carryWindowOpen,
      State.carryWindowRenew, State.carryWindowClose, State.carryFlowBind, State.carryFlowRelease,
      State.carryFlowHold, State.carryFlowResume, State.carryFlowQuery, State.carrySupplySet,
      State.carrySupplyQuery] <;>
    (repeat' split) <;>
    simp [State.setMaster, State.openWindow, write, bound, begins, region, checks, ends, State.loadRequest_outer]

/-! ## The end of an event -/

/-- The end of an event changes, of these, only the responder. -/
theorem State.trunkTakes_outer : s.trunkTakes.outer = { s.outer with mgmt := s.trunkTakes.mgmt } := by
  refine s.trunkTakes_keeps (fun u => u.outer = { s.outer with mgmt := u.mgmt }) (fun u c h => ?_) (fun u k h => h) rfl
  have e : (u.takeClaim c).outer = { u.outer with mgmt := (u.takeClaim c).mgmt } := by
    cases c with
    | offer =>
      simp only [State.takeClaim, State.offerJoins, State.offer]
      (repeat' split) <;> rfl
    | reply =>
      simp only [State.takeClaim, State.replyEnqueue]
      (repeat' split) <;> rfl
    | alert =>
      simp only [State.takeClaim, State.alertMove]
      (repeat' split) <;> rfl
  rw [e, h]

/-! ## Taking a request -/

/-- The responder's taking of a request leaves the queue one frame shorter (R160). -/
theorem State.reply_queue (frame : CanFrame) (a : Answer) : (s.reply frame a).mgmt.queue = s.mgmt.queue := by
  unfold State.reply
  split <;> rfl

/-- The request queue and the reply slot after a request was carried out, before its reply is placed. -/
theorem State.carry_mgmt (r : Request) (p : List Byte) : (State.carry r p s).1.mgmt = s.mgmt :=
  congrArg Outer.mgmt (s.carry_outer r p)

/-- A READY responder that takes a frame leaves the queue one frame shorter (R160). -/
theorem State.takeHead_queue {frame : CanFrame} (h : s.nextFrame = some frame) :
    s.takeHead.mgmt.queue = s.mgmt.queue.tail := by
  unfold State.takeHead
  rw [h]
  dsimp only
  split
  · next ht =>
    split
    · next r hr =>
      unfold State.takeRequest
      rw [h]
      dsimp only
      rw [if_pos (by simp [ht, hr])]
      split
      · rw [State.trunkTakes_queue, State.reply_queue, State.carry_mgmt]
        rfl
      · rw [State.reply_queue]
        rfl
    · next hr =>
      unfold State.unknownRequest
      rw [h]
      dsimp only
      rw [if_pos (by simp [ht, hr]), State.reply_queue]
      rfl
  · next ht =>
    unfold State.requestWithoutTag
    rw [h]
    dsimp only
    rw [if_neg ht]
    rfl

/-- What the responder's taking of a frame leaves as it was besides its own queue and slot. -/
theorem State.takeHead_outer : s.takeHead.outer = { s.outer with mgmt := s.takeHead.mgmt } := by
  have reply : ∀ (u : State) frame a, { u.outer with mgmt := s.outer.mgmt } = s.outer →
      (u.reply frame a).outer = { s.outer with mgmt := (u.reply frame a).mgmt } := by
    intro u frame a h
    rw [← h]
    unfold State.reply
    split <;> rfl
  unfold State.takeHead
  split
  · rfl
  · next frame hf =>
    split
    · split
      · next r _ =>
        unfold State.takeRequest
        rw [hf]
        dsimp only
        split
        · split
          · rw [State.trunkTakes_outer, reply _ frame]
            rw [State.carry_outer]
            rfl
          · exact reply s.dropHead frame _ rfl
        · rfl
      · unfold State.unknownRequest
        rw [hf]
        dsimp only
        split
        · exact reply s.dropHead frame _ rfl
        · rfl
    · unfold State.requestWithoutTag
      rw [hf]
      dsimp only
      split <;> rfl

/-! ## Settling ends (R160, R161, R168) -/

/-- What is still to come at once is bounded: three actions a frame, one reply and one alert. -/
def State.dueBound (s : State) : Nat :=
  3 * s.mgmt.queue.length + s.mgmt.slot.isSome.toNat + (!s.alerts.inFlight).toNat

/-- The bound of settling covers it. -/
theorem State.dueBound_le : s.dueBound ≤ s.atOnceBound := by
  have h1 := Bool.toNat_le s.mgmt.slot.isSome
  have h2 := Bool.toNat_le (!s.alerts.inFlight)
  unfold State.dueBound State.atOnceBound
  omega

/-- With nothing left to come nothing is due. -/
theorem State.atOnce_of_dueBound (h : s.dueBound = 0) : s.atOnce = [] := by
  unfold State.dueBound at h
  have hq : s.mgmt.queue = [] := by
    rw [← List.length_eq_zero_iff]; omega
  have hs : s.mgmt.slot = none := by
    cases hh : s.mgmt.slot with
    | none => rfl
    | some x => rw [hh] at h; simp at h
  have hi : s.alerts.inFlight = true := by
    cases hh : s.alerts.inFlight with
    | true => rfl
    | false => rw [hh] at h; simp at h
  rw [s.atOnce_eq_nil]
  refine ⟨?_, ?_, ?_⟩
  · simp [State.nextFrame, hq]
  · simp [State.replyReady, hs]
  · unfold State.alertReady; simp [hi]

/-- Each action that is due leaves less to come, so settling ends. -/
theorem State.doAtOnce_dueBound {a : AtOnce} (h : a ∈ s.atOnce) : (s.doAtOnce a).dueBound < s.dueBound := by
  unfold State.atOnce at h
  simp only [List.mem_append, List.mem_ite_nil_right, List.mem_singleton] at h
  rcases h with (⟨h1, rfl⟩ | ⟨h1, rfl⟩) | ⟨h1, rfl⟩
  · obtain ⟨frame, hf⟩ := Option.isSome_iff_exists.1 h1
    have hq := s.takeHead_queue hf
    have hne : s.mgmt.queue ≠ [] := by
      intro h0
      simp [State.nextFrame, h0] at hf
    have h0 := List.length_pos_iff.2 hne
    have h2 := Bool.toNat_le s.takeHead.mgmt.slot.isSome
    have h3 := Bool.toNat_le (!s.takeHead.alerts.inFlight)
    simp only [State.doAtOnce, State.dueBound, hq, List.length_tail]
    omega
  · obtain ⟨hs, hr⟩ := Bool.and_eq_true_iff.1 h1
    obtain ⟨frame, hf⟩ := Option.isSome_iff_exists.1 hs
    simp only [State.doAtOnce, State.replyEnqueue, hf, hr, if_true, State.dueBound]
    simp [State.enqueue, State.setPort]
  · have h2 := h1
    simp only [State.alertReady, Bool.and_eq_true] at h2
    cases he : s.alerts.entries with
    | nil => simp [he] at h2
    | cons a rest =>
      have hi : s.alerts.inFlight = false := by simpa using h2.1.2
      simp only [State.doAtOnce, State.alertMove, he, h1, if_true, State.dueBound, hi]
      simp [State.enqueue, State.setPort]

end Sys2Proof.Machine
end

