-- ==== Sys2Proof/Laws/CheckList.lean ====
section
/-! SUPPORT. The check list memory (R27): every operation keeps the canonical form, and what a read finds after a write. -/

namespace Sys2Proof.Machine

/-! One theorem is checked after another: many at once pass the memory limit. -/

set_option Elab.async false

/-- The form that `CheckMem.wf` checks, as a proposition: indexes strictly rising from `lo` on and below the size, no
entry that an unlisted index would read as. -/
def CheckMem.Canon (lo : Nat) : CheckMem → Prop
  | [] => True
  | (k, e) :: rest => lo ≤ k ∧ k < checkListSize ∧ e ≠ CheckEntry.unwritten ∧ CheckMem.Canon (k + 1) rest

theorem CheckMem.Canon.mono {m : CheckMem} {a b : Nat} (h : a ≤ b) (c : CheckMem.Canon b m) : CheckMem.Canon a m := by
  cases m with
  | nil => trivial
  | cons p rest => exact ⟨le_trans h c.1, c.2⟩

/-- Every entry of a canonical memory is in range and listed for a reason. -/
theorem CheckMem.Canon.mem {m : CheckMem} {lo : Nat} (c : CheckMem.Canon lo m) :
    ∀ p ∈ m, lo ≤ p.1 ∧ p.1 < checkListSize ∧ p.2 ≠ CheckEntry.unwritten := by
  induction m generalizing lo with
  | nil => simp
  | cons q rest ih =>
    intro p hp
    rcases List.mem_cons.1 hp with rfl | hp
    · exact ⟨c.1, c.2.1, c.2.2.1⟩
    · obtain ⟨h1, h2⟩ := ih c.2.2.2 p hp
      exact ⟨le_trans c.1 (by omega), h2⟩

theorem CheckMem.canon_of_pairwise {m : CheckMem} {lo : Nat} (hp : m.Pairwise fun a b => a.1 < b.1)
    (hm : ∀ p ∈ m, lo ≤ p.1 ∧ p.1 < checkListSize ∧ p.2 ≠ CheckEntry.unwritten) : CheckMem.Canon lo m := by
  induction m generalizing lo with
  | nil => trivial
  | cons q rest ih =>
    obtain ⟨h1, h2, h3⟩ := hm q (by simp)
    refine ⟨h1, h2, h3, ih hp.of_cons fun p h => ⟨?_, (hm p (List.mem_cons_of_mem _ h)).2⟩⟩
    exact List.rel_of_pairwise_cons hp h

theorem CheckMem.Canon.pairwise {m : CheckMem} {lo : Nat} (c : CheckMem.Canon lo m) :
    m.Pairwise fun a b => a.1 < b.1 := by
  induction m generalizing lo with
  | nil => exact List.Pairwise.nil
  | cons q rest ih => exact List.Pairwise.cons (fun p h => (c.2.2.2.mem p h).1) (ih c.2.2.2)

/-- The two readings of the canonical form agree. -/
theorem CheckMem.wf_iff (m : CheckMem) : m.wf = true ↔ CheckMem.Canon 0 m := by
  constructor
  · intro h
    simp only [CheckMem.wf, Bool.and_eq_true, decide_eq_true_eq, List.all_eq_true, bne_iff_ne, ne_eq] at h
    exact CheckMem.canon_of_pairwise h.1 fun p hp => ⟨Nat.zero_le _, h.2 p hp⟩
  · intro c
    simp only [CheckMem.wf, Bool.and_eq_true, decide_eq_true_eq, List.all_eq_true, bne_iff_ne, ne_eq]
    exact ⟨c.pairwise, fun p hp => (c.mem p hp).2⟩

/-- Putting an entry in or out keeps the canonical form. -/
theorem CheckMem.Canon.put {m : CheckMem} {lo k : Nat} (e : CheckEntry) (c : CheckMem.Canon lo m) (hl : lo ≤ k)
    (hk : k < checkListSize) : CheckMem.Canon lo (m.put k e) := by
  induction m generalizing lo with
  | nil =>
    unfold CheckMem.put
    split
    · trivial
    · rename_i he
      exact ⟨hl, hk, he, trivial⟩
  | cons q rest ih =>
    obtain ⟨j, x⟩ := q
    obtain ⟨h1, h2, h3, h4⟩ := c
    unfold CheckMem.put
    by_cases ha : k < j
    · rw [if_pos ha]
      split
      · exact ⟨h1, h2, h3, h4⟩
      · rename_i he
        exact ⟨hl, hk, he, ha, h2, h3, h4⟩
    · rw [if_neg ha]
      by_cases hb : k = j
      · subst hb
        rw [if_pos rfl]
        split
        · exact h4.mono (by omega)
        · rename_i he
          exact ⟨h1, h2, he, h4⟩
      · rw [if_neg hb]
        exact ⟨h1, h2, h3, ih h4 (by omega)⟩

/-- A write keeps the canonical form. -/
theorem CheckMem.write_wf {m : CheckMem} (h : m.wf = true) (k : Nat) (e : CheckEntry) : (m.write k e).wf = true := by
  unfold CheckMem.write
  split
  · rename_i hk
    rw [CheckMem.wf_iff] at h ⊢
    exact h.put e (Nat.zero_le _) hk
  · exact h

/-- Writing values in a row keeps the canonical form. -/
theorem CheckMem.writeAll_wf {m : CheckMem} (h : m.wf = true) (k : Nat) (l : List Word) :
    (m.writeAll k l).wf = true := by
  induction l generalizing m k with
  | nil => exact h
  | cons v rest ih => exact ih (CheckMem.write_wf h k _) _

/-- The empty memory has the canonical form. -/
theorem CheckMem.wf_nil : CheckMem.wf [] = true := by decide

/-- Below its first index a canonical memory reads as unwritten. -/
theorem CheckMem.Canon.read_below {m : CheckMem} {lo k : Nat} (c : CheckMem.Canon lo m) (h : k < lo) :
    m.read k = CheckEntry.unwritten := by
  induction m generalizing lo with
  | nil => rfl
  | cons q rest ih =>
    obtain ⟨j, x⟩ := q
    have hj : j ≠ k := by have := c.1; omega
    unfold CheckMem.read
    rw [if_neg hj]
    exact ih c.2.2.2 (by have := c.1; omega)

/-- What a read finds after an entry was put in or out. -/
theorem CheckMem.Canon.read_put {m : CheckMem} {lo k : Nat} (e : CheckEntry) (c : CheckMem.Canon lo m) (j : Nat) :
    (m.put k e).read j = if j = k then e else m.read j := by
  induction m generalizing lo with
  | nil =>
    unfold CheckMem.put
    split
    · rename_i he
      by_cases h : j = k <;> simp [h, he, CheckMem.read]
    · by_cases h : j = k
      · simp [h, CheckMem.read]
      · simp [h, Ne.symm h, CheckMem.read]
  | cons q rest ih =>
    obtain ⟨i, x⟩ := q
    obtain ⟨h1, h2, h3, h4⟩ := c
    unfold CheckMem.put
    by_cases ha : k < i
    · rw [if_pos ha]
      by_cases he : e = CheckEntry.unwritten
      · rw [if_pos he]
        by_cases hj : j = k
        · rw [if_pos hj, hj, he]
          have hc : CheckMem.Canon i ((i, x) :: rest) := ⟨le_refl i, h2, h3, h4⟩
          exact hc.read_below ha
        · rw [if_neg hj]
      · rw [if_neg he]
        by_cases hj : j = k
        · simp [hj, CheckMem.read]
        · simp [hj, Ne.symm hj, CheckMem.read]
    · rw [if_neg ha]
      by_cases hb : k = i
      · subst hb
        rw [if_pos rfl]
        by_cases he : e = CheckEntry.unwritten
        · rw [if_pos he]
          by_cases hj : j = k
          · rw [if_pos hj, hj, he]
            exact h4.read_below (by omega)
          · rw [if_neg hj]
            conv_rhs => rw [CheckMem.read, if_neg (Ne.symm hj)]
        · rw [if_neg he]
          by_cases hj : j = k
          · simp [hj, CheckMem.read]
          · simp [hj, Ne.symm hj, CheckMem.read]
      · rw [if_neg hb]
        by_cases hi : i = j
        · subst hi
          simp [CheckMem.read, Ne.symm hb]
        · conv_lhs => rw [CheckMem.read, if_neg hi]
          conv_rhs => rw [CheckMem.read, if_neg hi]
          exact ih h4

/-- What a read finds after a write inside the memory. -/
theorem CheckMem.read_write {m : CheckMem} (h : m.wf = true) {k : Nat} (hk : k < checkListSize) (e : CheckEntry)
    (j : Nat) : (m.write k e).read j = if j = k then e else m.read j := by
  rw [CheckMem.write, if_pos hk]
  exact ((CheckMem.wf_iff m).1 h).read_put e j

end Sys2Proof.Machine
end

