-- ==== Sys2Proof/Laws/Damage.lean ====
section
/-! SUPPORT. Which damage the reads of an image record find (R37, R78; log 8, log 23). -/

namespace Sys2Proof.Machine

/-! One theorem is checked after another: many at once pass the memory limit. -/

set_option Elab.async false

variable (r : ImageRecord)

/-- A damaged slot among the first `n`. -/
theorem slots_damaged_iff (n : Nat) :
    (r.slots.toList.take n).any (·.parityBad) = true ↔ ∃ k : SlotId, k.val < n ∧ (r.slots.get k).parityBad = true := by
  rw [List.any_eq_true]
  constructor
  · rintro ⟨x, hx, hp⟩
    obtain ⟨i, hi, rfl⟩ := List.getElem_of_mem hx
    simp only [List.length_take, Vector.length_toList] at hi
    refine ⟨⟨i, by omega⟩, ?_, by simpa [Vector.get] using hp⟩
    show i < n
    omega
  · rintro ⟨k, hk, hp⟩
    refine ⟨r.slots.get k, ?_, hp⟩
    rw [List.mem_take_iff_getElem]
    exact ⟨k.val, by simp; omega, by simp [Vector.get]⟩

/-- What the checks of ERASE and OPEN find: any damaged field, or a damaged slot below the region count (R78, log 23). -/
theorem ImageRecord.readBad_iff :
    r.readBad = true ↔
      r.bad ≠ [] ∨ ∃ k : SlotId, k.val < r.regionCount.getD 0 ∧ (r.slots.get k).parityBad = true := by
  rw [← slots_damaged_iff, ImageRecord.readBad, Bool.or_eq_true, ImageRecord.usedSlots]
  cases r.bad <;> simp

/-- What a loading request finds: one of five damaged fields (R37). -/
theorem ImageRecord.loadReadBad_iff : r.loadReadBad = true ↔ LoadFieldsDamaged r := by
  simp [ImageRecord.loadReadBad, LoadFieldsDamaged]

end Sys2Proof.Machine
end

