-- ==== Sys2Proof/Laws/Idle.lean ====
section
/-! SUPPORT. What a step on an empty queue of commands looks at (log 2): when each kind of action is due, and what settling
leaves as it was before a happening. -/

namespace Sys2Proof.Machine

/-! One theorem is checked after another: many at once pass the memory limit. -/

set_option Elab.async false

variable (s : State)

/-! ## What is due -/

theorem mem_dueIf {c i : Instr} {b : Bool} : c ∈ dueIf b i ↔ c = i ∧ b = true := by
  cases b <;> simp [dueIf]

/-- A reply is due when one waits and has room (R161). -/
theorem State.replyReady_iff :
    s.replyReady = true ↔ s.mgmt.slot ≠ none ∧ s.room .trunk (.generated .reply) = true := by
  unfold State.replyReady
  cases s.mgmt.slot <;> simp

/-- An alert is due when one waits, none is in flight and there is room (R168). -/
theorem State.alertReady_iff :
    s.alertReady = true ↔
      s.alerts.entries ≠ [] ∧ s.alerts.inFlight = false ∧ s.room .trunk (.generated .alert) = true := by
  unfold State.alertReady
  cases s.alerts.entries <;> cases s.alerts.inFlight <;> simp

/-- A window expiry is due when the window is OPEN and its expiry time is reached (R118). -/
theorem State.windowDue_iff :
    s.windowDue = true ↔ s.window.state = .opened ∧ ∃ e, s.window.expiry = some e ∧ e ≤ s.now := by
  unfold State.windowDue
  cases s.window.state <;> cases s.window.expiry <;> simp

/-- The expiry of a pending request is due when its deadline is reached (R50). -/
theorem State.pendingDue_iff (f : FlowId) :
    s.pendingDue f = true ↔ ∃ q, (s.flow f).pendingReq = some q ∧ q.deadline ≤ s.now := by
  unfold State.pendingDue
  cases (s.flow f).pendingReq <;> simp

/-- The expiry of a gap is due when an INSPECTED parcel's gap deadline is reached (R88). -/
theorem State.gapDue_iff (f : FlowId) :
    s.gapDue f = true ↔
      ∃ p d, (s.flow f).record = some (.inspected p) ∧ p.gapDeadline = some d ∧ d ≤ s.now := by
  unfold State.gapDue
  rcases (s.flow f).record with _ | r
  · simp
  · cases r with
    | inspected p => rcases h : p.gapDeadline with _ | d <;> simp [h]
    | _ => simp

/-- An attempt is due at a port that carries traffic, has a frame and sends none (R151). -/
theorem PortUnit.attemptDue_iff (u : PortUnit) :
    u.attemptDue = true ↔ u.conf.carries = true ∧ u.queue ≠ [] ∧ ∀ q ∈ u.queue, q.sending = false := by
  unfold PortUnit.attemptDue PortUnit.sendingFrame
  cases u.queue <;> simp

/-- A recovery is due at a RECOVERING port after 128 runs (R154). -/
theorem PortUnit.recovered_iff (u : PortUnit) :
    u.recovered = true ↔ u.conf = .recovering ∧ 128 ≤ u.recessiveRuns := by
  unfold PortUnit.recovered
  rw [Bool.and_eq_true, beq_iff_eq]
  exact and_congr Iff.rfl decide_eq_true_iff

/-- A sample is due when its time is reached (R128). -/
theorem State.sampleDue_iff : s.sampleDue = true ↔ s.supply.nextSample ≤ s.now := by
  unfold State.sampleDue
  simp

/-! ## Settling -/

/-- An action that is due at once changes, of the model's queues, the time, RESET, the strap and the responder, only the
responder. -/
theorem State.doAtOnce_outer (a : AtOnce) : (s.doAtOnce a).outer = { s.outer with mgmt := (s.doAtOnce a).mgmt } := by
  cases a with
  | take => exact s.takeHead_outer
  | reply =>
    simp only [State.doAtOnce, State.replyEnqueue]
    (repeat' split) <;> rfl
  | alert =>
    simp only [State.doAtOnce, State.alertMove]
    (repeat' split) <;> rfl

/-- Settling changes, of these, only the responder. -/
theorem State.settle_outer : s.settle.outer = { s.outer with mgmt := s.settle.mgmt } := by
  refine s.settle_keeps (fun u => u.outer = { s.outer with mgmt := u.mgmt }) (fun u a h => ?_) (fun u k h => h) rfl
  rw [u.doAtOnce_outer a, h]

/-- Settling leaves the queue of outside happenings. -/
@[simp] theorem State.settle_outside : s.settle.outside = s.outside := congrArg Outer.outside s.settle_outer

end Sys2Proof.Machine
end

