-- ==== Sys2Proof/Laws/Queues.lean ====
section
/-! SUPPORT. The ordered lists of the part: transmit queues (R155), the alert queue (R167) and sets of flows (R136). -/

namespace Sys2Proof.Machine

/-! One theorem is checked after another: many at once pass the memory limit. -/

set_option Elab.async false

/-! ## Transmit queues -/

variable (q : QueuedFrame) (l : List QueuedFrame)

/-- A joined frame and the frames of the queue are the frames after the join. -/
theorem insertByKey_perm : (insertByKey q l).Perm (q :: l) := by
  induction l with
  | nil => exact List.Perm.refl _
  | cons x rest ih =>
    unfold insertByKey
    split
    · exact List.Perm.refl _
    · exact (List.Perm.cons x ih).trans (List.Perm.swap q x rest)

@[simp] theorem insertByKey_length : (insertByKey q l).length = l.length + 1 := by
  simpa using (insertByKey_perm q l).length_eq

@[simp] theorem mem_insertByKey {x : QueuedFrame} : x ∈ insertByKey q l ↔ x = q ∨ x ∈ l := by
  simpa using (insertByKey_perm q l).mem_iff (a := x)

theorem insertByKey_countP (c : QueuedFrame → Bool) : (insertByKey q l).countP c = l.countP c + (c q).toNat := by
  rw [(insertByKey_perm q l).countP_eq c, List.countP_cons]
  cases c q <;> rfl

/-- A join keeps the order of keys (R155). -/
theorem insertByKey_ordered {l : List QueuedFrame} (h : KeysOrdered l) : KeysOrdered (insertByKey q l) := by
  induction l with
  | nil => simp [insertByKey, KeysOrdered]
  | cons x rest ih =>
    have hx := (List.pairwise_cons.1 h).1
    unfold insertByKey
    split
    · rename_i hk
      refine List.Pairwise.cons (fun y hy => ?_) h
      rcases List.mem_cons.1 hy with rfl | hy
      · exact le_of_lt hk
      · exact le_trans (le_of_lt hk) (hx y hy)
    · rename_i hk
      refine List.Pairwise.cons (fun y hy => ?_) (ih h.of_cons)
      rcases (mem_insertByKey q rest).1 hy with rfl | hy
      · exact not_lt.1 hk
      · exact hx y hy

/-- The order of keys is that of the frames alone, not of the marks. -/
theorem keysOrdered_iff (l : List QueuedFrame) :
    KeysOrdered l ↔ (l.map fun x => idKey x.frame.id).Pairwise (· ≤ ·) := by
  simp [KeysOrdered, List.pairwise_map]

/-! ## The alert queue -/

/-- After an alert is queued the keys are those before, and its own (R167). -/
theorem mem_putAlert_keys (a : Alert) (l : List Alert) (k : AlertKey) :
    k ∈ (putAlert a l).map Alert.key ↔ k = a.key ∨ k ∈ l.map Alert.key := by
  induction l with
  | nil => simp [putAlert]
  | cons x rest ih =>
    unfold putAlert
    split
    · rename_i h
      simp [h]
    · simp only [List.map_cons, List.mem_cons, ih]
      tauto

/-- Queueing an alert keeps the keys distinct (R166, R167). -/
theorem putAlert_nodup (a : Alert) {l : List Alert} (h : (l.map Alert.key).Nodup) :
    ((putAlert a l).map Alert.key).Nodup := by
  induction l with
  | nil => simp [putAlert]
  | cons x rest ih =>
    rw [List.map_cons, List.nodup_cons] at h
    unfold putAlert
    split
    · rename_i hk
      rw [List.map_cons, List.nodup_cons, ← hk]
      exact h
    · rename_i hk
      rw [List.map_cons, List.nodup_cons, mem_putAlert_keys]
      refine ⟨fun hc => ?_, ih h.2⟩
      rcases hc with hc | hc
      · exact hk hc
      · exact h.1 hc

/-- A queued alert is in the queue (R167). -/
theorem mem_putAlert (a : Alert) (l : List Alert) : a ∈ putAlert a l := by
  induction l with
  | nil => simp [putAlert]
  | cons x rest ih =>
    unfold putAlert
    split
    · simp
    · exact List.mem_cons_of_mem _ ih

/-! ## Sets of flows -/

@[simp] theorem mem_insertFlow {f g : FlowId} {l : List FlowId} : g ∈ insertFlow f l ↔ g = f ∨ g ∈ l := by
  induction l with
  | nil => simp [insertFlow]
  | cons x rest ih =>
    unfold insertFlow
    split
    · simp
    · split
      · rename_i h
        simp [h]
      · simp only [List.mem_cons, ih]
        tauto

@[simp] theorem mem_dropFlow {f g : FlowId} {l : List FlowId} : g ∈ dropFlow f l ↔ g ∈ l ∧ g ≠ f := by
  simp [dropFlow]

/-- A withdrawal keeps a set ascending (R136). -/
theorem dropFlow_sorted (f : FlowId) {l : List FlowId} (h : l.Pairwise (· < ·)) : (dropFlow f l).Pairwise (· < ·) :=
  h.filter _

/-- An ascending set is the flows in ascending number that are in it (R137). -/
theorem sorted_eq_filter {l : List FlowId} (h : l.Pairwise (· < ·)) :
    l = (List.finRange 16).filter fun f => f ∈ l := by
  refine List.Perm.eq_of_pairwise (le := fun a b => a ≤ b) (fun a b _ _ h1 h2 => le_antisymm h1 h2) (h.imp le_of_lt)
    ((List.Pairwise.imp le_of_lt (List.pairwise_lt_finRange 16)).filter _) ?_
  rw [List.perm_ext_iff_of_nodup (h.imp ne_of_lt) ((List.nodup_finRange 16).filter _)]
  simp

/-- A gate request keeps the waiting set ascending without repetition (R136). -/
theorem insertFlow_sorted (f : FlowId) {l : List FlowId} (h : l.Pairwise (· < ·)) :
    (insertFlow f l).Pairwise (· < ·) := by
  induction l with
  | nil => simp [insertFlow]
  | cons x rest ih =>
    have hx := (List.pairwise_cons.1 h).1
    unfold insertFlow
    split
    · rename_i hf
      refine List.Pairwise.cons (fun y hy => ?_) h
      rcases List.mem_cons.1 hy with rfl | hy
      · exact hf
      · exact lt_trans hf (hx y hy)
    · split
      · exact h
      · rename_i h1 h2
        refine List.Pairwise.cons (fun y hy => ?_) (ih h.of_cons)
        rcases mem_insertFlow.1 hy with rfl | hy
        · exact lt_of_le_of_ne (not_lt.1 h1) (Ne.symm h2)
        · exact hx y hy

end Sys2Proof.Machine
end

