-- ==== Sys2Proof/Laws/Requests.lean ====
section
/-! SUPPORT. What the responder does with the head frame of the request queue (C9): one lemma for the request that is
asked, and one for every command that finds another head frame. -/

namespace Sys2Proof.Machine

/-! One theorem is checked after another: many at once pass the memory limit. -/

set_option Elab.async false

variable {s : State} {r : Request} {frame : CanFrame} {rest : List CanFrame}

/-- A reply in the statements' words (R15, R160, R161). -/
theorem State.reply_eq (u : State) (a : Answer) : u.reply frame a = Answered u frame a.bytes := rfl

/-- The bytes of the answers (R15). -/
@[simp] theorem done_bytes (fields : List Byte) : (Answer.done fields).bytes = doneBytes fields := rfl

@[simp] theorem busy_bytes : (Answer.refused .busy).bytes = busyBytes := rfl

@[simp] theorem badValue_bytes : (Answer.refused .badValue).bytes = refusedBytes 1 := rfl

@[simp] theorem order_bytes : (Answer.refused .order).bytes = refusedBytes 2 := rfl

@[simp] theorem noRoom_bytes : (Answer.refused .noRoom).bytes = refusedBytes 4 := rfl

@[simp] theorem duplicate_bytes : (Answer.refused .duplicate).bytes = refusedBytes 5 := rfl

@[simp] theorem incomplete_bytes : (Answer.refused .incomplete).bytes = refusedBytes 6 := rfl

@[simp] theorem overlap_bytes : (Answer.refused .overlap).bytes = refusedBytes 7 := rfl

@[simp] theorem unknown_bytes : (Answer.refused .unknown).bytes = refusedBytes 8 := rfl

@[simp] theorem refused_state (u : State) (k : MgmtReason) : (u.refused k).1 = u := rfl

@[simp] theorem refused_answer (u : State) (k : MgmtReason) : (u.refused k).2 = .refused k := rfl

@[simp] theorem done_state (u : State) (l : List Byte) : (u.done l).1 = u := rfl

@[simp] theorem done_answer (u : State) (l : List Byte) : (u.done l).2 = .done l := rfl

/-- The frame a READY responder with a waiting request takes. -/
theorem nextFrame_ready (t : Time) (hs : s.mgmt.slot = none) (hq : s.mgmt.queue = frame :: rest) :
    (s.advance t).nextFrame = some frame := by
  simp [State.nextFrame, State.ready, hs, hq]

/-- A responder that is WAITING takes no frame. -/
theorem nextFrame_waiting (t : Time) (hs : s.mgmt.slot ≠ none) : (s.advance t).nextFrame = none := by
  have h : s.mgmt.slot.isNone = false := by
    cases h : s.mgmt.slot with
    | none => exact absurd h hs
    | some x => rfl
  simp [State.nextFrame, State.ready, h]

/-- The head frame leaves the queue (R160). -/
theorem dropHead_taken (t : Time) (hs : s.mgmt.slot = none) (hq : s.mgmt.queue = frame :: rest) :
    (s.advance t).dropHead = Taken s t rest := by
  unfold State.dropHead
  show ({ s.advance t with mgmt := ⟨s.mgmt.queue.tail, s.mgmt.slot⟩ } : State) = _
  rw [hs, hq]
  rfl

/-- The request that is asked is carried out on the state without its frame, its reply waits, and the frames it offered
to TRUNK join (R14, R160, R162). -/
theorem takeRequest_asked (t : Time) (h : Asked s r frame rest) (carry : List Byte → State → State × Answer) :
    (s.advance t).takeRequest r carry =
      (Answered (carry (params frame) (Taken s t rest)).1 frame
        (carry (params frame) (Taken s t rest)).2.bytes).trunkTakes := by
  unfold State.takeRequest
  rw [nextFrame_ready t h.ready h.queue]
  have ht : tagged frame = true := by
    have := h.long
    simp only [tagged, decide_eq_true_eq]
    omega
  have hr : requestNamed frame = some r := h.code
  have hf : r.fits frame = true := by simpa [Request.fits] using h.long
  simp only [ht, hr, hf, beq_self_eq_true, Bool.and_self, if_true, dropHead_taken t h.ready h.queue]
  rfl

/-- A reply offers no frame. -/
@[simp] theorem State.reply_offers (u : State) (a : Answer) : (u.reply frame a).offers = u.offers := by
  unfold State.reply
  split <;> rfl

/-- The request that is asked and offers no frame to TRUNK ends when its reply waits (R14, R160). -/
theorem takeRequest_quiet (t : Time) (h : Asked s r frame rest) (carry : List Byte → State → State × Answer)
    (ho : (carry (params frame) (Taken s t rest)).1.offers = []) :
    (s.advance t).takeRequest r carry =
      Answered (carry (params frame) (Taken s t rest)).1 frame (carry (params frame) (Taken s t rest)).2.bytes := by
  rw [takeRequest_asked t h, State.trunkTakes_nil]
  rw [← State.reply_eq, State.reply_offers, ho]

/-- A request whose frame is too short for its parameters is refused BAD_VALUE (R14). -/
theorem takeRequest_short (t : Time) (hs : s.mgmt.slot = none) (hq : s.mgmt.queue = frame :: rest)
    (hl : 2 ≤ frame.data.length) (hc : Request.ofByte (byteAt frame.data 0) = some r)
    (hf : frame.data.length < 2 + r.paramBytes frame.data) (carry : List Byte → State → State × Answer) :
    (s.advance t).takeRequest r carry = Answered (Taken s t rest) frame (refusedBytes 1) := by
  unfold State.takeRequest
  rw [nextFrame_ready t hs hq]
  have ht : tagged frame = true := by simpa [tagged] using hl
  have hr : requestNamed frame = some r := hc
  have hn : r.fits frame = false := by simpa [Request.fits] using hf
  simp only [ht, hr, hn, beq_self_eq_true, Bool.and_self, if_true, dropHead_taken t hs hq]
  rfl

/-- A command for another head frame than its own has no effect (log 4). -/
theorem takeRequest_other (t : Time) (hs : s.mgmt.slot = none) (hq : s.mgmt.queue = frame :: rest)
    (hc : Request.ofByte (byteAt frame.data 0) ≠ some r) (carry : List Byte → State → State × Answer) :
    (s.advance t).takeRequest r carry = s.advance t := by
  unfold State.takeRequest
  rw [nextFrame_ready t hs hq]
  have hr : (requestNamed frame == some r) = false := by simpa [requestNamed] using hc
  simp [hr]

/-- A WAITING responder takes no request (R160). -/
theorem takeRequest_waiting (t : Time) (hs : s.mgmt.slot ≠ none) (carry : List Byte → State → State × Answer) :
    (s.advance t).takeRequest r carry = s.advance t := by
  unfold State.takeRequest
  rw [nextFrame_waiting t hs]

/-- A number read from the parameters is one of the first `n`. -/
theorem below_val {n v : Nat} {k : Fin n} (h : v = k.val) : below n v = some k := by
  subst h
  simp [below]

/-- A number read from the parameters is past the last one. -/
theorem below_none {n v : Nat} (h : n ≤ v) : below n v = none := by
  unfold below
  rw [dif_neg (by omega)]

end Sys2Proof.Machine
end

