-- ==== Sys2Proof/Laws/Unoffered.lean ====
section
/-! SUPPORT. What offers no frame to TRUNK: every operation but a refusal, a response and a plain frame, so no request but
PORT SET (R97, R134, R143, R162). -/

namespace Sys2Proof.Machine

/-! One theorem is checked after another: many at once pass the memory limit. -/

set_option Elab.async false

variable (s : State)

/-! ## Shared operations -/

@[simp] theorem State.unbind_offers (b : Binding) : (s.unbind b).offers = s.offers := rfl

@[simp] theorem State.bind_offers (f : FlowId) (n : TargetId) (i : ImageId) (q : FlowParams) :
    (s.bind f n i q).offers = s.offers := rfl

@[simp] theorem State.raiseFault_offers (k : FaultFlag) : (s.raiseFault k).offers = s.offers := by
  unfold State.raiseFault
  split <;> rfl

@[simp] theorem State.raiseIf_offers (b : Bool) (k : FaultFlag) : (s.raiseIf b k).offers = s.offers := by
  unfold State.raiseIf
  split <;> simp

@[simp] theorem State.freeFlowCells_offers (f : FlowId) : (s.freeFlowCells f).offers = s.offers := by
  simp [State.freeFlowCells, foldl_view State.offers State.freeCell State.freeCell_offers]

@[simp] theorem State.abandonFlowSlice_offers (f : FlowId) : (s.abandonFlowSlice f).offers = s.offers := by
  unfold State.abandonFlowSlice
  (repeat' split) <;> rfl

@[simp] theorem State.abandonImageSlice_offers (i : ImageId) : (s.abandonImageSlice i).offers = s.offers := by
  unfold State.abandonImageSlice
  (repeat' split) <;> rfl

@[simp] theorem State.beginSlice_offers (r : Requester) : (s.beginSlice r).offers = s.offers := by
  cases r with
  | flow f =>
    unfold State.beginSlice State.beginFlowSlice
    dsimp only
    split <;> rfl
  | image i => rfl

@[simp] theorem State.wakeEngine_offers (r : Requester) : (s.wakeEngine r).offers = s.offers := by
  unfold State.wakeEngine
  split <;> simp

@[simp] theorem State.nextSlice_offers : s.nextSlice.offers = s.offers := by
  unfold State.nextSlice
  split <;> simp

@[simp] theorem State.flowAlert_offers (f : FlowId) (h : HoldCauses) : (s.flowAlert f h).offers = s.offers := by
  unfold State.flowAlert
  split <;> simp

@[simp] theorem State.failFlow_offers (f : FlowId) (k : Condition) : (s.failFlow f k).offers = s.offers := by
  unfold State.failFlow
  dsimp only
  split <;> simp

/-- A failure that is counted offers nothing (R58, R59). -/
theorem State.countFailure_offers (f : FlowId) (h : s.offers = []) : (s.countFailure f).offers = [] := by
  unfold State.countFailure
  dsimp only
  split <;> simp [h]

@[simp] theorem State.emptyQueue_offers (p : Port) : (s.emptyQueue p).offers = s.offers := by
  unfold State.emptyQueue State.clearInFlight
  (repeat' split) <;> rfl

/-- A restart of a port that carries no traffic loses no work of a flow (R154). -/
theorem State.restart_offers {p : Port} (h : (s.port p).conf.carries = false) : (s.restart p).offers = s.offers := by
  simp [State.restart, h]

@[simp] theorem State.clearTrackers_offers : s.clearTrackers.offers = s.offers := by
  refine foldl_view State.offers State.clearTrackerOf (fun s f => ?_) allFlows s
  unfold State.clearTrackerOf
  (repeat' split) <;> simp

@[simp] theorem State.closeWindow_offers (cause : ClosureCause) : (s.closeWindow cause).offers = s.offers := by
  have h : ∀ (u : State) (f : FlowId), (u.clearRecordOf f).offers = u.offers := by
    intro u f
    unfold State.clearRecordOf
    split <;> simp
  simp [State.closeWindow, foldl_view State.offers State.clearRecordOf h,
    foldl_view State.offers (fun s f => State.failFlow s f cause.condition) (fun s f => s.failFlow_offers f _)]

@[simp] theorem State.releaseFlow_offers (f : FlowId) : (s.releaseFlow f).offers = s.offers := by
  unfold State.releaseFlow
  dsimp only
  split <;> simp

@[simp] theorem State.discard_offers (i : ImageId) : (s.discard i).offers = s.offers := by simp [State.discard]

/-! ## Requests -/

@[simp] theorem State.refused_offers (r : MgmtReason) : (s.refused r).1.offers = s.offers := rfl
@[simp] theorem State.done_offers (l : List Byte) : (s.done l).1.offers = s.offers := rfl

/-- A loading request offers nothing when what it goes on with does not (R28 to R31). -/
theorem State.loadRequest_offers (i : ImageId) (k : ImageState) (go : State → State × Answer)
    (h : (go s).1.offers = s.offers) : (s.loadRequest i k go).1.offers = s.offers := by
  unfold State.loadRequest
  (repeat' split) <;> simp [h]

/-- No request but PORT SET offers a frame to TRUNK (R153, R163). -/
theorem State.carry_offers {r : Request} (hr : r ≠ .portSet) (p : List Byte) :
    (State.carry r p s).1.offers = s.offers := by
  have write : ∀ (n : TargetId) (e : TargetEntry), (s.writeTarget n e).1.offers = s.offers := by
    intro n e
    unfold State.writeTarget
    dsimp only
    (repeat' split) <;> simp
  have bound : ∀ f n i q, (s.bindChecked f n i q).1.offers = s.offers := by
    intro f n i q
    unfold State.bindChecked
    dsimp only
    (repeat' split) <;> simp
  have begins : ∀ i k n c, (State.beginImage i k n c s).1.offers = s.offers := by
    intro i k n c
    unfold State.beginImage
    split <;> simp
  have region : ∀ i n g, (State.loadRegion i n g s).1.offers = s.offers := by
    intro i n g
    unfold State.loadRegion
    dsimp only
    (repeat' split) <;> simp
  have checks : ∀ i n l, (State.loadChecks i n l s).1.offers = s.offers := by
    intro i n l
    unfold State.loadChecks
    dsimp only
    split <;> simp
  have ends : ∀ i w n, (State.endImage i w n s).1.offers = s.offers := by
    intro i w n
    unfold State.endImage
    dsimp only
    split <;> simp
  have restarts : ∀ port, (s.port port).conf = .off → (s.restart port).offers = s.offers := fun port h =>
    s.restart_offers (by rw [h]; rfl)
  cases r
  case portSet => exact absurd rfl hr
  all_goals
    simp only [State.carry, State.carryStatus, State.carryFaultsClear, State.carryPortRestart,
      State.carryRouteWrite, State.carryRouteRead, State.carryRoutingEnable, State.carryTargetWrite,
      State.carryTargetRead, State.carryImageBegin, State.carryImageRegion, State.carryImageChecks,
      State.carryImageEnd, State.carryImageDiscard, State.carryImageQuery, State.carryWindowOpen,
      State.carryWindowRenew, State.carryWindowClose, State.carryFlowBind, State.carryFlowRelease,
      State.carryFlowHold, State.carryFlowResume, State.carryFlowQuery, State.carrySupplySet,
      State.carrySupplyQuery]
  all_goals
    (repeat' split) <;>
    simp [State.setMaster, State.openWindow, State.loadRequest_offers, *]

/-- A READY responder that takes a frame between events leaves no offered frame (R160, R162). -/
theorem State.takeHead_offers (h : s.offers = []) : s.takeHead.offers = [] := by
  unfold State.takeHead
  split
  · exact h
  · next frame hf =>
    split
    · split
      · next r _ =>
        unfold State.takeRequest
        rw [hf]
        dsimp only
        split
        · split
          · simp
          · unfold State.reply; split <;> exact h
        · exact h
      · unfold State.unknownRequest
        rw [hf]
        dsimp only
        split
        · unfold State.reply; split <;> exact h
        · exact h
    · unfold State.requestWithoutTag
      rw [hf]
      dsimp only
      split <;> exact h

/-- A command of a request between events leaves no offered frame (R160, R162). -/
theorem State.takeRequest_offers (r : Request) (carry : List Byte → State → State × Answer) (h : s.offers = []) :
    (s.takeRequest r carry).offers = [] := by
  unfold State.takeRequest State.reply
  (repeat' split) <;> simp [h, State.dropHead_offers]

/-- Settling between events leaves no offered frame. -/
theorem State.settle_offers (h : s.offers = []) : s.settle.offers = [] := by
  refine s.settle_keeps (fun u => u.offers = []) (fun u a hu => ?_) (fun u k hu => hu) h
  cases a with
  | take => exact u.takeHead_offers hu
  | reply => simpa [State.doAtOnce] using hu
  | alert => simpa [State.doAtOnce] using hu

/-! ## Happenings that offer no frame -/

@[simp] theorem State.clearInFlight_offers (l : List QueuedFrame) : (s.clearInFlight l).offers = s.offers := by
  unfold State.clearInFlight
  split <;> rfl

@[simp] theorem State.receptionError_offers (p : Port) : (s.receptionError p).offers = s.offers := by
  unfold State.receptionError
  split <;> simp

@[simp] theorem State.attemptStart_offers (p : Port) : (s.attemptStart p).offers = s.offers := by
  unfold State.attemptStart
  (repeat' split) <;> simp

@[simp] theorem State.transmissionSuccess_offers (p : Port) : (s.transmissionSuccess p).offers = s.offers := by
  unfold State.transmissionSuccess
  split <;> simp

@[simp] theorem State.recoveryComplete_offers (p : Port) : (s.recoveryComplete p).offers = s.offers := by
  unfold State.recoveryComplete
  split <;> simp

theorem State.onExpiry_offers (f : FlowId) (k : PendingKind) (h : s.offers = []) : (s.onExpiry f k).offers = [] := by
  cases k <;> simp [State.onExpiry, h, State.countFailure_offers]

theorem State.pendingExpiry_offers (f : FlowId) (h : s.offers = []) : (s.pendingExpiry f).offers = [] := by
  unfold State.pendingExpiry
  (repeat' split) <;> simp [h, State.onExpiry_offers]

@[simp] theorem State.windowExpiry_offers : s.windowExpiry.offers = s.offers := by
  unfold State.windowExpiry
  (repeat' split) <;> simp

@[simp] theorem State.selfCheckFault_offers (i : ImageId) (k : FaultFlag) :
    (s.selfCheckFault i k).offers = s.offers := by simp [State.selfCheckFault, State.endSelfCheck]

@[simp] theorem State.selfCheckCompare_offers (i : ImageId) : (s.selfCheckCompare i).offers = s.offers := by
  unfold State.selfCheckCompare State.endSelfCheck
  dsimp only
  split <;> simp

@[simp] theorem State.imageSliceComplete_offers : s.imageSliceComplete.offers = s.offers := by
  unfold State.imageSliceComplete State.imageSliceResult
  dsimp only
  (repeat' split) <;> simp

@[simp] theorem State.sampleTime_offers : s.sampleTime.offers = s.offers := by
  unfold State.sampleTime
  (repeat' split) <;> simp

end Sys2Proof.Machine
end

