-- ==== Sys2Proof/WellFormed.lean ====
section
/-! DEFINITION. Which commands can come from the outside at all: frames a CAN FD bus can carry and readings
the converter can give. The meanings are total and do not rest on these checks. -/

namespace Sys2Proof

/-- The CAN FD data lengths (C1 section 1.1). -/
def canFdLengths : List Nat := [0, 1, 2, 3, 4, 5, 6, 7, 8, 12, 16, 20, 24, 32, 48, 64]

/-- An identifier within the range of its format (R20). -/
def CanId.wf (i : CanId) : Bool :=
  match i.format with
  | .base => i.value.toNat ≤ 0x7FF
  | .extended => true

/-- A CAN FD frame has one of the CAN FD data lengths. A classical frame has at most 8 bytes and no bit-rate
switching. -/
def CanFrame.wf (f : CanFrame) : Bool :=
  f.id.wf && (if f.fd then canFdLengths.contains f.data.length else f.data.length ≤ 8 && !f.brs)

/-- The checks on a command's operands: an arriving frame is a CAN frame, a raw reading lies in 0 to 32767
(R129). -/
def Instr.wf : Instr → Bool
  | .frameArrival _ _ f => f.wf
  | .conversionComplete _ raw => raw ≤ 32767
  | _ => true

end Sys2Proof
end

