-- ==== Sys2Proof/Tests/Slice0.lean ====
section
/-! SUPPORT. Tests: the checks of WellFormed, worked values of the manual, single steps on small states, and for every
statement with hypotheses states and operands that meet them. -/

namespace Sys2Proof.Tests

open Sys2Proof.Machine

/-! One theorem is checked after another: many at once pass the memory limit. -/

set_option Elab.async false

/-! ## WellFormed refuses an ill-formed term for each of its checks -/

theorem test_wf_accepts_a_frame : Instr.wf (.frameArrival 0 .trunk ⟨⟨.base, 0x7FF⟩, true, true, [1, 2]⟩) = true :=
  by decide

theorem test_wf_refuses_a_base_id_above_7FF :
    Instr.wf (.frameArrival 0 .trunk ⟨⟨.base, 0x800⟩, true, true, []⟩) = false := by decide

theorem test_wf_refuses_an_fd_length_of_9 :
    Instr.wf (.frameArrival 0 .trunk ⟨⟨.base, 0⟩, true, true, List.replicate 9 0⟩) = false := by decide

theorem test_wf_refuses_a_classical_length_of_9 :
    Instr.wf (.frameArrival 0 .trunk ⟨⟨.base, 0⟩, false, false, List.replicate 9 0⟩) = false := by decide

theorem test_wf_refuses_classical_rate_switching :
    Instr.wf (.frameArrival 0 .trunk ⟨⟨.base, 0⟩, false, true, []⟩) = false := by decide

theorem test_wf_refuses_a_reading_above_32767 : Instr.wf (.conversionComplete 0 32768) = false := by decide

/-! ## No word spells a command -/

theorem test_no_word_decodes : decodeTableWord 16 0x1234 = none := rfl

theorem test_fetch_word_changes_nothing : State.reset.withFetchWord 16 0x1234 = State.reset := rfl

/-! ## Small states -/

/-- Out of reset, everything else at reset. -/
def live : State := { State.reset with resetHeld := false }

/-- The request identifier of target 0. -/
def idQ : CanId := ⟨.base, 0x640⟩

/-- The response identifier of target 0. -/
def idR : CanId := ⟨.base, 0x648⟩

/-- Target 0, on segment 0. -/
def tgt : TargetEntry := { TargetEntry.reset with state := .valid, request := idQ, response := idR }

/-- One region of 512 bytes in blocks of 256. -/
def reg : Region := ⟨0x10000, 0, 512, 256, true⟩

/-- A READY image with that region. -/
def img : ImageRecord :=
  { ImageRecord.reset with
    state := .ready, tag := 7, regionCount := some 1, slots := ImageRecord.reset.slots.set 0 ⟨some reg, false⟩,
    extent := some ⟨0, 2⟩, written := some [true, true], expected := some 0, level := some 7, refCount := 1 }

/-- The default parameters. -/
def prm : FlowParams := ⟨3, 4, 0, 200, 5000, 1000, 48⟩

/-- Flow 0 bound to target 0 and image 0. -/
def bnd : Binding := ⟨0, 0, prm, [.erased]⟩

/-- A bound flow in a state. -/
def bound (k : FlowState) : FlowCtx := { FlowCtx.reset with state := k, binding := some bnd }

/-- The open region of the tests: one block of 4 bytes. -/
def opn : OpenRegion := ⟨0, 4, 256, 1⟩

/-- A LOADING flow. -/
def loading : FlowCtx := { bound .loading with openRegion := some opn }

/-- ROUTING mode, an open window, target 0, image 0 and flow 0 as given, supply NORMAL. -/
def world (c : FlowCtx) : State :=
  { live with
    mode := .routing, window := ⟨.opened, some 1000, some 1000000, .none⟩, targets := live.targets.set 0 tgt,
    images := live.images.set 0 img, flows := live.flows.set 0 c, supply := { Supply.reset with state := .normal } }

/-- A WHOLE request frame of target 0. -/
def whole (payload : List Byte) : CanFrame :=
  ⟨idQ, true, true, padded ([0x00, BitVec.ofNat 8 payload.length] ++ payload)⟩

/-- A WHOLE response frame of target 0. -/
def answer (payload : List Byte) : CanFrame := { whole payload with id := idR }

def eraseFrame : CanFrame := whole ([0x61] ++ be 4 0x10000 ++ be 4 512)

def openFrame : CanFrame := whole ([0x62] ++ be 4 0x10000 ++ be 4 512 ++ be 2 256)

def blockFrame : CanFrame := whole [0x63, 1, 0xA, 0xB, 0xC, 0xD]

def closeFrame : CanFrame := whole [0x64]

def activateFrame : CanFrame := whole [0x65]

def abandonFrame : CanFrame := whole [0x66]

/-- An OPENER of 100 payload bytes with a request code. -/
def opener (code : Byte) : CanFrame := ⟨idQ, true, true, [0x40] ++ be 2 100 ++ [code, 1] ++ List.replicate 59 0⟩

/-- A CARRIER with a roll index and a number of payload bytes. -/
def carrier (roll : Byte) (n : Nat) : CanFrame := ⟨idQ, true, true, [0x80 + roll] ++ List.replicate n 0⟩

/-- A request frame with its code, tag 0x55 and parameters. -/
def reqFrame (r : Request) (p : List Byte) : CanFrame := ⟨requestId 0, true, true, padded ([r.code, 0x55] ++ p)⟩

/-- A state whose request queue holds that frame. -/
def asking (s : State) (r : Request) (p : List Byte) : State := { s with mgmt := ⟨[reqFrame r p], none⟩ }

/-- The state a command leaves. -/
def after (i : Instr) (s : State) : State :=
  match exec i s with
  | .next s' => s'
  | _ => s

/-- The data of the reply to a request. -/
def replyTo (s : State) (r : Request) (p : List Byte) : List Byte :=
  ((after (r.command 0) (asking s r p)).mgmt.slot.map CanFrame.data).getD []

/-! ## Worked values -/

theorem test_check_value_of_nine_digits :
    checkValue [0x31, 0x32, 0x33, 0x34, 0x35, 0x36, 0x37, 0x38, 0x39] = 0xCBF43926 := by decide +kernel

theorem test_most_significant_byte_first : be 4 0x01020304 = [1, 2, 3, 4] ∧ fieldAt [9, 1, 2] 1 2 = 258 := by decide

theorem test_key_base_before_extended :
    idKey ⟨.base, 0x640⟩ < idKey ⟨.extended, BitVec.ofNat 29 (0x640 * 2 ^ 18)⟩
      ∧ idKey ⟨.extended, BitVec.ofNat 29 (0x640 * 2 ^ 18)⟩ < idKey ⟨.base, 0x641⟩ := by decide

theorem test_management_ids_of_strap_7 : managementIds 7 = [⟨.base, 0x7BC⟩, ⟨.base, 0x7BD⟩, ⟨.base, 0x7BE⟩] := by decide

theorem test_status_at_release :
    replyTo live .status [] =
      [0x01, 0x55, 0, 0, 0x36, 0x20, 2, 0, 0, 0, 0, 0, 1, 0xFF, 0xFF, 2, 0, 0, 0, 0, 0, 0, 0, 0, 0, 0, 0, 0, 0, 0, 0,
        0] := by decide +kernel

theorem test_supply_query_at_release :
    (replyTo live .supplyQuery []).take 21 =
      [0x61, 0x55, 0, 0, 1, 0xFF, 0xFF, 5, 0, 0, 0x2A, 0xF8, 0x25, 0x1C, 0x2C, 0xEC, 3, 0xFF, 0, 0, 0] := by
  decide +kernel

/-! ## One step of each command -/

theorem test_device_reset :
    (after (.deviceReset 5) (world loading)).flow 0 = FlowCtx.reset
      ∧ (after (.deviceReset 5) (world loading)).now = 5 := by
  decide +kernel

theorem test_reset_release :
    (after (.resetRelease 9 3) State.reset).strap = 3 ∧ (after (.resetRelease 9 3) State.reset).supply.nextSample = 9 := by
  decide +kernel

theorem test_close_is_forwarded :
    ((after (.frameArrival 1 .trunk closeFrame) (world loading)).flow 0).pendingReq = some ⟨.close 0, 200001⟩
      ∧ ((after (.frameArrival 1 .trunk closeFrame) (world loading)).port .seg0).queue.length = 1 := by decide +kernel

theorem test_block_is_checked :
    (after (.frameArrival 1 .trunk blockFrame) (world loading)).engine.isSome = true
      ∧ ((after (.frameArrival 1 .trunk blockFrame) (world loading)).flow 0).fifo = [0] := by decide +kernel

theorem test_reception_error_counts : ((after (.receptionError 0 .seg1) live).port .seg1).rxErrors = 1 :=
  by decide +kernel

/-- TRUNK with a refusal in its queue. -/
def queued : State := live.offer .trunk (.generated .refusal) (generatedFrame idR [0, 4, 0xF1, 0x61, 0xC9, 0])

/-- The same with its attempt in progress. -/
def sending : State := after (.transmissionAttemptStart 0 .trunk) queued

theorem test_attempt_start : (sending.port .trunk).sendingFrame.isSome = true := by decide +kernel

theorem test_transmission_success : ((after (.transmissionSuccess 0 .trunk) sending).port .trunk).queue = [] := by
  decide +kernel

theorem test_arbitration_lost : (after (.arbitrationLost 0 .trunk) sending).port .trunk = queued.port .trunk :=
  by decide +kernel

theorem test_transmission_error :
    ((after (.transmissionError 0 .trunk) sending).port .trunk).txErrors = 8
      ∧ ((after (.transmissionError 0 .trunk) sending).port .trunk).queue = (queued.port .trunk).queue :=
  by decide +kernel

/-- A RECOVERING port that has counted some runs of recessive bits. -/
def recoveringPort (n : Nat) : State :=
  live.setPort .seg0 { PortUnit.reset with conf := .recovering, recessiveRuns := n }

theorem test_recovery_complete :
    ((after (.recoveryComplete 0 .seg0) (recoveringPort 128)).port .seg0).conf = .active
      ∧ ((after (.recoveryComplete 0 .seg0) (recoveringPort 127)).port .seg0).conf = .recovering := by decide +kernel

theorem test_reply_enqueue :
    ((after (.replyEnqueue 0) { live with mgmt := ⟨[], some ⟨replyId 0, true, true, []⟩⟩ }).port .trunk).queue.length
      = 1 := by decide +kernel

theorem test_alert_move :
    (after (.alertMove 0) (live.queueAlert (.window .closed 0))).alerts = ⟨[], true⟩ := by decide +kernel

theorem test_request_without_tag :
    (after (.requestWithoutTag 0) { live with mgmt := ⟨[⟨requestId 0, true, true, [1]⟩], none⟩ }).mgmt = ⟨[], none⟩ := by
  decide +kernel

theorem test_unknown :
    (after (.unknown 0) { live with mgmt := ⟨[⟨requestId 0, true, true, [3, 9]⟩], none⟩ }).mgmt.slot
      = some ⟨replyId 0, true, true, [3, 9, 1, 8]⟩ := by decide +kernel

/-- A STATUS request waits at a READY responder, and the state is at time 3. -/
def statusDue : State := { asking live .status [] with now := 3 }

theorem test_request_taken_before_the_next_event :
    (after (.receptionError 9 .seg0) statusDue).mgmt.queue = []
      ∧ ((after (.receptionError 9 .seg0) statusDue).port .trunk).queue.length = 1
      ∧ (after (.receptionError 9 .seg0) statusDue).now = 9 := by decide +kernel

theorem test_alert_moved_before_the_next_event :
    (after (.sampleTime 9) (live.queueAlert (.window .closed 0))).alerts = ⟨[], true⟩ := by decide +kernel

theorem test_faults_clear :
    replyTo { live with faults := ⟨true, true, false, false, true⟩ } .faultsClear [0x11] = [0x02, 0x55, 0, 0, 2] := by
  decide +kernel

theorem test_port_set :
    ((after (.portSet 0) (asking live .portSet [2, 3, 4, 0])).port .seg1) =
      { PortUnit.reset with nominal := .k1000, dataRate := .m8, autoRecovery := false } := by decide +kernel

theorem test_port_restart_of_an_active_port : replyTo live .portRestart [0] = [0x11, 0x55, 1, 2] := by decide +kernel

theorem test_route_write :
    (after (.routeWrite 0) (asking live .routeWrite
      ([95, 1, 0] ++ be 4 0x7FF ++ be 4 0x700 ++ [0x01, 0x1E, 1]))).route 95 =
      ⟨.valid, .base, 0x7FF, 0x700, 0x01, 0x1E, .blocked, false⟩ := by decide +kernel

theorem test_route_read_of_an_empty_entry :
    replyTo live .routeRead [0] = [0x13, 0x55] ++ List.replicate 18 0 := by decide +kernel

theorem test_routing_enable : (after (.routingEnable 0) (asking live .routingEnable [1])).defaultAction = .drop := by
  decide +kernel

/-- The parameters of TARGET WRITE for the target of the tests. -/
def targetParams (n : Byte) : List Byte :=
  [n, 1, 0, 0] ++ be 4 0x640 ++ [0] ++ be 4 0x648 ++ be 6 0 ++ be 6 0

theorem test_target_write :
    (after (.targetWrite 0) (asking live .targetWrite (targetParams 31))).target 31 = tgt := by decide +kernel

theorem test_target_write_duplicate :
    replyTo (world (bound .idle)) .targetWrite (targetParams 31) = [0x20, 0x55, 1, 5] := by decide +kernel

theorem test_target_read :
    (replyTo (world (bound .idle)) .targetRead [0]).take 17 =
      [0x21, 0x55, 0, 0, 1, 0, 0, 0, 0, 0x06, 0x40, 0, 0, 0, 0x06, 0x48, 0] := by decide +kernel

theorem test_image_begin :
    ((after (.imageBegin 0) (asking live .imageBegin ([2] ++ be 4 5 ++ [1] ++ be 2 4096))).image 2).extent
      = some ⟨0, 4096⟩ := by decide +kernel

/-- An image that is loading one region and two checks. -/
def loadingImage : State :=
  live.setImage 0
    { ImageRecord.reset with
      state := .loading, regionCount := some 1, extent := some ⟨10, 2⟩, written := some [false, false] }

theorem test_image_region :
    replyTo loadingImage .imageRegion ([0, 0] ++ be 4 0x10000 ++ [0] ++ be 4 512 ++ be 2 256 ++ [1]) =
      [0x31, 0x55, 0, 0, 0, 0, 0, 2] := by decide +kernel

theorem test_image_checks :
    (after (.imageChecks 0) (asking loadingImage .imageChecks ([0] ++ be 2 1 ++ [1] ++ be 4 0xCBF43926))).checkList =
      [(11, ⟨0xCBF43926, false⟩)] := by decide +kernel

theorem test_image_end_incomplete :
    replyTo loadingImage .imageEnd ([0] ++ be 4 0 ++ [0]) = [0x33, 0x55, 1, 6] := by decide +kernel

theorem test_image_discard : replyTo loadingImage .imageDiscard [0] = [0x34, 0x55, 0, 0] := by decide +kernel

theorem test_image_query :
    (replyTo (world (bound .idle)) .imageQuery [0]).take 18 =
      [0x35, 0x55, 0, 0, 3, 0, 0, 0, 7, 1, 1, 0, 0, 0, 2, 0, 2, 0] := by decide +kernel

theorem test_window_open :
    (after (.windowOpen 0) (asking { live with mode := .routing } .windowOpen (be 2 600))).window =
      ⟨.opened, some 60000, some 60000000, .none⟩ := by decide +kernel

theorem test_window_renew :
    replyTo (world (bound .idle)) .windowRenew [2] = [0x41, 0x55, 1, 2]
      ∧ replyTo (world (bound .idle)) .windowRenew [1] = [0x41, 0x55, 0, 0, 1] := by decide +kernel

theorem test_window_close :
    ((after (.windowClose 0) (asking (world loading) .windowClose [])).flow 0).condition = some .windowClosed := by
  decide +kernel

theorem test_flow_bind :
    ((after (.flowBind 0) (asking (world FlowCtx.reset) .flowBind ([0, 0, 0, 0x7F] ++ be 7 0))).flow 0).binding =
      some ⟨0, 0, prm, [.blank]⟩ := by decide +kernel

theorem test_flow_release :
    (after (.flowRelease 0) (asking (world loading) .flowRelease [0])).flow 0 = FlowCtx.reset := by decide +kernel

theorem test_flow_hold : replyTo (world loading) .flowHold [0] = [0x52, 0x55, 0, 0, 1] := by decide +kernel

theorem test_flow_resume : replyTo (world loading) .flowResume [0] = [0x53, 0x55, 0, 0, 0] := by decide +kernel

theorem test_flow_query :
    (replyTo (world loading) .flowQuery [0]).take 15 = [0x54, 0x55, 0, 0, 4, 0, 0, 3, 4, 0, 20, 50, 100, 48, 1] := by
  decide +kernel

theorem test_supply_set :
    replyTo live .supplySet ([5] ++ be 2 0xFFFF ++ be 2 11000 ++ be 2 9500 ++ be 2 11500 ++ [3]) =
      [0x60, 0x55, 0, 0, 1] := by decide +kernel

/-- The LOADING flow with a pending CLOSE, deadline 500. -/
def closing : FlowCtx := { loading with state := .closing, pendingReq := some ⟨.close 0, 500⟩ }

theorem test_pending_deadline :
    ((after (.pendingDeadlineExpiry 500 0) (world closing)).flow 0).state = .idle
      ∧ ((after (.pendingDeadlineExpiry 499 0) (world closing)).flow 0).state = .closing := by decide +kernel

/-- A LOADING flow in the middle of an INSPECTED parcel of 100 bytes, gap deadline 500. -/
def inspecting : FlowCtx :=
  { loading with record := some (.inspected ⟨100, 61, some 1, some 500, 1, 98, false, 0⟩) }

theorem test_gap_deadline :
    ((after (.gapDeadlineExpiry 500 0) (world inspecting)).flow 0).record = some .refused
      ∧ ((after (.gapDeadlineExpiry 500 0) (world inspecting)).flow 0).failures = 1 := by decide +kernel

theorem test_window_expiry : (after (.windowExpiry 1000000) (world loading)).window.state = .closed := by decide +kernel

/-- The block of the tests in the check engine. -/
def checking : State := after (.frameArrival 1 .trunk blockFrame) (world loading)

theorem test_flow_slice_mismatch :
    ((after (.flowSliceComplete 2) checking).flow 0).lastVerdict = some .mismatch := by decide +kernel

/-- The same with the block's check value in the check list. -/
def matching : State := { checking with checkList := [(0, ⟨checkValue [0xA, 0xB, 0xC, 0xD], false⟩)] }

theorem test_flow_slice_match :
    ((after (.flowSliceComplete 2) matching).flow 0).pendingReq = some ⟨.block 1 4 false, 200002⟩ := by decide +kernel

/-- An image in its self-check: its one slice in the engine. -/
def selfChecking : State :=
  (live.setImage 0 { img with state := .checking, progress := some 0, acc := some accPreset }).wakeEngine (.image 0)

theorem test_image_slice :
    ((after (.imageSliceComplete 2) selfChecking).image 0).state = .defective := by decide +kernel

theorem test_damaged_extent_ends_the_self_check :
    let s := after (.imageSliceComplete 2) (selfChecking.setImage 0 { selfChecking.image 0 with bad := [.extent] })
    (s.image 0).state = .defective ∧ s.faults.image = true := by decide +kernel

theorem test_sample_time : (after (.sampleTime 7) live).supply.converter = .converting 207 [] := by decide +kernel

theorem test_conversion_complete :
    (after (.conversionComplete 300 12000) (after (.sampleTime 7) live)).supply.lastSample = some 12000
      ∧ (after (.conversionComplete 300 12000) (after (.sampleTime 7) live)).supply.run = some ⟨.normal, 1⟩ := by
  decide +kernel

/-! ## States and operands that meet the statements' hypotheses -/

theorem tgt_world (n : TargetId) : (live.targets.set 0 tgt).get n = if n = 0 then tgt else TargetEntry.reset := by
  revert n; decide +kernel

theorem target_world (c : FlowCtx) (n : TargetId) :
    (world c).target n = if n = 0 then tgt else TargetEntry.reset := tgt_world n

theorem flow_live (g : FlowId) : live.flow g = FlowCtx.reset := by revert g; decide +kernel

theorem flow_world (c : FlowCtx) (g : FlowId) : (world c).flow g = if g = 0 then c else FlowCtx.reset := by
  have h : (world c).flow g = (live.setFlow 0 c).flow g := rfl
  rw [h, State.flow_setFlow, flow_live]

/-- A state out of reset without requests, reply, alerts and offered frames has nothing due at once. -/
theorem quiet {s : State} (hr : s.resetHeld = false) (hm : s.mgmt = ⟨[], none⟩) (ha : s.alerts.entries = [])
    (ho : s.offers = [] := by rfl) : Running s where
  released := hr
  offered := ho
  taken := .inl (by rw [hm])
  replied := .inl (by rw [hm])
  alerted := .inl ha

/-- A request that is asked, with any parameters long enough. -/
theorem asked {s : State} (r : Request) (p : List Byte) (hs : s.resetHeld = false)
    (hl : 2 + r.paramBytes (reqFrame r p).data ≤ (reqFrame r p).data.length) (ho : s.offers = [] := by rfl) :
    Asked (asking s r p) r (reqFrame r p) [] where
  running := hs
  offered := ho
  ready := rfl
  queue := rfl
  code := by
    have h : byteAt (reqFrame r p).data 0 = r.code := rfl
    rw [h]
    cases r <;> decide
  long := hl

/-- A frame that arrives in the tests' world. -/
theorem arrives (c : FlowCtx) (p : Port) {frame : CanFrame} (h : frame.id ∉ managementIds 0) :
    RoutingArrival (world c) p frame where
  running := quiet rfl rfl rfl
  routing := rfl
  carries := by cases p <;> rfl
  notManagement := h
  sound := by
    intro n _
    rw [target_world]
    split <;> rfl

/-- A frame with the request identifier names target 0. -/
theorem requests (c : FlowCtx) {frame : CanFrame} (h : frame.id = idQ) : RequestOf (world c) frame 0 where
  valid := by rw [target_world]; rfl
  id := by rw [target_world, h]; rfl
  only := by
    intro m hm _
    rw [target_world] at hm
    by_contra hc
    rw [if_neg hc] at hm
    cases hm

/-- A frame with the response identifier names target 0. -/
theorem responds (c : FlowCtx) {frame : CanFrame} (h : frame.id = idR) : ResponseOf (world c) frame 0 where
  valid := by rw [target_world]; rfl
  id := by rw [target_world, h]; rfl
  only := by
    intro m hm _
    rw [target_world] at hm
    by_contra hc
    rw [if_neg hc] at hm
    cases hm
  noRequest := by
    intro m hm
    rw [target_world, h]
    split
    · decide
    · decide

/-- The flow of the tests is bound to target 0. -/
theorem binds {c : FlowCtx} (h : c.state ≠ .free) (ht : c.target = some 0) : BoundTo (world c) 0 0 where
  bound := by rw [flow_world]; exact h
  target := by rw [flow_world]; exact ht
  only := by
    intro g hg _
    rw [flow_world] at hg
    by_contra hc
    rw [if_neg hc] at hg
    exact hg rfl

/-- With a FREE flow target 0 is not bound. -/
theorem unbound : Unbound (world FlowCtx.reset) 0 := by
  intro g hg
  rw [flow_world, ite_self] at hg
  exact absurd rfl hg

/-- A frame at the record of the tests' flow. -/
theorem reaches {c : FlowCtx} {frame : CanFrame} (hf : frame.id = idQ) (h : c.state ≠ .free) (ht : c.target = some 0) :
    RecordArrival (world c) frame 0 0 :=
  ⟨arrives c .trunk (by rw [hf]; decide), requests c hf, binds h ht, rfl⟩

/-- A first frame at the record of the tests' flow. -/
theorem admitted {c : FlowCtx} {frame : CanFrame} (hf : frame.id = idQ)
    (hk : frameKind frame = .whole ∨ frameKind frame = .opener) (h : c.state ≠ .free) (ht : c.target = some 0) :
    AdmissionArrival (world c) frame 0 0 :=
  ⟨arrives c .trunk (by rw [hf]; decide), requests c hf, binds h ht, rfl, hk⟩

/-! The step, reset and ports -/

/-- Two happenings wait, damage to route entry 95 first. -/
def upset : State :=
  { live with
    supply := { live.supply with nextSample := 1 }, outside := [.routeUpset 95 RouteEntry.reset, .recessiveRun .seg3] }

theorem witness_EveryStepGoesOnAndIdleActs :
    (State.reset.pending = [] ∧ State.reset.resetHeld = true ∧ live.pending = [] ∧ live.resetHeld = false)
    ∧ (upset.pending = [] ∧ upset.resetHeld = false ∧ upset.dueCommands = [] ∧ upset.outside ≠ []
      ∧ ({ upset with outside := [] } : State).dueCommands = [])
    ∧ (live.dueCommands = [.sampleTime 0] ∧ live.outside = []
      ∧ 2 ≤ ({ live with outside := upset.outside } : State).dueCommands.length + min 1 upset.outside.length
      ∧ 2 ≤ (asking live .status []).dueCommands.length + min 1 (asking live .status []).outside.length)
    ∧ (([] : List Byte).length < 2 ∧ 2 ≤ ([3, 9] : List Byte).length ∧ Request.ofByte (byteAt [3, 9] 0) = none
      ∧ 2 ≤ (reqFrame .status []).data.length
      ∧ Request.ofByte (byteAt (reqFrame .status []).data 0) = some .status) := by decide +kernel

theorem witness_ResetAndRelease :
    State.reset.resetHeld = true ∧ live.resetHeld = false ∧ (∀ t, Instr.status 0 ≠ .deviceReset t)
      ∧ ∀ t k, Instr.status 0 ≠ .resetRelease t k := ⟨rfl, rfl, nofun, nofun⟩

/-- A port OFF. -/
def offPort : State := live.setPort .seg0 { PortUnit.reset with conf := .off }

/-- The attempt in progress with 247 or 248 transmit errors counted. -/
def errorsAt (n : Nat) : State := sending.setPort .trunk { sending.port .trunk with txErrors := n }

theorem witness_ErrorsAreCounted :
    (Running live ∧ Running offPort ∧ Running (errorsAt 247) ∧ Running queued)
    ∧ (live.port .seg1).conf.carries = true ∧ (offPort.port .seg0).conf.carries = false
    ∧ (((errorsAt 247).port .trunk).conf.carries = true
      ∧ (∃ q ∈ ((errorsAt 247).port .trunk).queue, q.sending = true) ∧ ((errorsAt 247).port .trunk).txErrors + 8 ≤ 255)
    ∧ ∀ q ∈ (queued.port .trunk).queue, q.sending = false :=
  ⟨⟨quiet rfl rfl rfl, quiet rfl rfl rfl, quiet (by decide +kernel) (by decide +kernel) (by decide +kernel),
    quiet (by decide +kernel) (by decide +kernel) (by decide +kernel)⟩, by decide +kernel⟩

theorem witness_AttemptsAndSuccess :
    (Running queued ∧ Running offPort ∧ Running live ∧ Running sending)
    ∧ ((queued.port .trunk).conf.carries = true
      ∧ (queued.port .trunk).queue = [(queued.port .trunk).queue.headD ⟨⟨idQ, true, true, []⟩, .plain, false⟩]
      ∧ ∀ x ∈ (queued.port .trunk).queue, x.sending = false)
    ∧ ((offPort.port .seg0).conf.carries = false ∧ (live.port .seg0).queue = []
      ∧ ∃ x ∈ (sending.port .trunk).queue, x.sending = true)
    ∧ ((sending.port .trunk).conf.carries = true ∧ (sending.port .trunk).queue = [] ++ (sending.port .trunk).queue
      ∧ ((sending.port .trunk).queue.map QueuedFrame.sending) = [true]) :=
  ⟨⟨quiet (by decide +kernel) (by decide +kernel) (by decide +kernel), quiet rfl rfl rfl, quiet rfl rfl rfl,
    quiet (by decide +kernel) (by decide +kernel) (by decide +kernel)⟩, by decide +kernel⟩

theorem witness_success_without_an_attempt :
    Running live ∧ ∀ q ∈ (live.port .seg0).queue, q.sending = false := ⟨quiet rfl rfl rfl, by decide +kernel⟩

/-- A flow with a GATED ERASE. -/
def gatedFlow : FlowCtx := { bound .idle with record := some (.gated (.erase 0)), held := some 0 }

/-- A segment in the last attempt before OFF. -/
def segmentFailing : State :=
  live.setPort .seg0
    { PortUnit.reset with queue := [⟨⟨⟨.base, 0x123⟩, false, false, [1]⟩, .plain, true⟩], txErrors := 248 }

theorem witness_PortsEnterAndLeaveOff :
    (Running (errorsAt 248) ∧ Running segmentFailing ∧ Running (recoveringPort 128) ∧ Running (recoveringPort 127))
    ∧ ((∃ q ∈ ((errorsAt 248).port .trunk).queue, q.sending = true) ∧ 255 < ((errorsAt 248).port .trunk).txErrors + 8)
    ∧ ((∃ q ∈ (segmentFailing.port .seg0).queue, q.sending = true) ∧ 255 < (segmentFailing.port .seg0).txErrors + 8)
    ∧ ((live.flow 0).state = .free
      ∧ ((world { inspecting with failures := 1 }).setTarget 0 { tgt with parityBad := true }).flow 0
        = { inspecting with failures := 1 }
      ∧ (((world inspecting).setTarget 0 { tgt with parityBad := true }).target 0).parityBad = true)
    ∧ (((world inspecting).target 0).parityBad = false ∧ ((world inspecting).flow 0).state ≠ .free
      ∧ ((world inspecting).flow 0).target = some 0
      ∧ ((world inspecting).flow 0).record = some (.inspected ⟨100, 61, some 1, some 500, 1, 98, false, 0⟩))
    ∧ (((world gatedFlow).flow 0).state ≠ .free
      ∧ ((world gatedFlow).flow 0).target = some 0 ∧ ((world gatedFlow).flow 0).record = some (.gated (.erase 0))
      ∧ Port.seg0 = ((world gatedFlow).target 0).segment.port ∧ Port.seg3 ≠ ((world gatedFlow).target 0).segment.port
      ∧ ((world loading).flow 0).record = none)
    ∧ (((recoveringPort 128).port .seg0).conf = .recovering ∧ 128 ≤ ((recoveringPort 128).port .seg0).recessiveRuns
      ∧ ((recoveringPort 128).port .seg1).conf ≠ .recovering
      ∧ ((recoveringPort 127).port .seg0).recessiveRuns < 128) :=
  ⟨⟨quiet (by decide +kernel) (by decide +kernel) (by decide +kernel), quiet rfl rfl rfl, quiet rfl rfl rfl,
    quiet rfl rfl rfl⟩, by decide +kernel⟩

theorem witness_QueueRoom :
    live.room .trunk (.generated .refusal) = true ∧ offPort.room .seg0 .plain = false
    ∧ ((live.port .seg0).conf = .active ∨ (live.port .seg0).conf = .passive) ∧ (live.port .seg0).queue.length < 32 := by
  decide +kernel

theorem witness_JoinsInKeyOrder :
    KeysOrdered (queued.port .trunk).queue ∧ (BitVec.ofNat 29 2047).toNat < 2 ^ 11
      ∧ (BitVec.ofNat 29 2046).toNat < 2 ^ 11 := by
  refine ⟨?_, by decide, by decide⟩
  have h : (queued.port .trunk).queue.map (fun q => idKey q.frame.id) = [idKey idR] := by decide +kernel
  unfold KeysOrdered
  match hq : (queued.port .trunk).queue, h with
  | [], _ => exact List.Pairwise.nil
  | [x], _ => exact List.pairwise_singleton _ _
  | _ :: _ :: _, h => simp at h

/-! Arrivals -/

/-- A management frame of strap 0. -/
def mgmtFrame (i : CanId) : CanFrame := ⟨i, true, true, [1, 2]⟩

/-- A frame that names no target. -/
def plainFrame : CanFrame := ⟨⟨.base, 0x123⟩, false, false, [1]⟩

/-- A request queue that is full, behind a reply that finds the TRUNK queue full. -/
def fullRequests : State :=
  { live.setPort .trunk { PortUnit.reset with queue := List.replicate 32 ⟨plainFrame, .generated .refusal, false⟩ } with
    mgmt := ⟨List.replicate 4 (mgmtFrame (requestId 0)), some (mgmtFrame (replyId 0))⟩ }

theorem witness_ManagementAndPassthroughArrivals :
    (Running live ∧ Running fullRequests ∧ Running offPort)
    ∧ ((live.port .trunk).conf.carries = true ∧ (mgmtFrame (requestId 0)).id = requestId live.strap
      ∧ live.mgmt.queue.length < 4)
    ∧ ((fullRequests.port .trunk).conf.carries = true ∧ (mgmtFrame (requestId 0)).id = requestId fullRequests.strap
      ∧ 4 ≤ fullRequests.mgmt.queue.length)
    ∧ ((mgmtFrame (replyId 0)).id = replyId live.strap ∧ (mgmtFrame (alertId 0)).id = alertId live.strap)
    ∧ (offPort.port .seg0).conf.carries = false
    ∧ (live.mode = .passthrough ∧ plainFrame.id ∉ managementIds live.strap) :=
  ⟨⟨quiet rfl rfl rfl, ⟨rfl, rfl, .inr nofun, .inr (by decide +kernel), .inl rfl⟩, quiet rfl rfl rfl⟩, by decide +kernel⟩

/-- A route entry that any frame from TRUNK with a base identifier 0x100 to 0x1FF matches. -/
def hitRoute : RouteEntry := ⟨.valid, .base, 0x100, 0x700, 0x01, 0x02, .plain, false⟩

/-- The world with a route entry 0. -/
def routed (e : RouteEntry) : State :=
  { world FlowCtx.reset with routes := live.routes.set 0 e, defaultAction := .drop }

theorem route_routed (e : RouteEntry) (n : RouteId) :
    (routed e).route n = if n = 0 then e else RouteEntry.reset := by
  have h : (routed e).route n = (live.setRoute 0 e).route n := rfl
  have hr : ∀ n : RouteId, live.route n = RouteEntry.reset := by decide +kernel
  rw [h, State.route_setRoute, hr]

theorem routed_arrival (e : RouteEntry) : RoutingArrival (routed e) .trunk plainFrame :=
  have h := arrives FlowCtx.reset .trunk (frame := plainFrame) (by decide)
  ⟨quiet rfl rfl rfl, h.2, h.3, h.4, h.5⟩

theorem routed_names_no_target (e : RouteEntry) (m : TargetId) (_ : ((routed e).target m).state = .valid) :
    ((routed e).target m).request ≠ plainFrame.id ∧ ((routed e).target m).response ≠ plainFrame.id := by
  have h : (routed e).target m = if m = 0 then tgt else TargetEntry.reset := tgt_world m
  rw [h]
  split <;> decide

theorem witness_RoutesDecide :
    (RoutingArrival (routed hitRoute) .trunk plainFrame ∧ ((routed hitRoute).route 0).state = .valid
      ∧ ((routed hitRoute).route 0).parityBad = false ∧ RouteHit ((routed hitRoute).route 0) .trunk plainFrame.id
      ∧ ∀ q : RouteId, q < 0 → ((routed hitRoute).route q).state = .valid →
        ((routed hitRoute).route q).parityBad = false ∧ ¬ RouteHit ((routed hitRoute).route q) .trunk plainFrame.id)
    ∧ ∀ q, ((routed RouteEntry.reset).route q).state = .valid →
      ((routed RouteEntry.reset).route q).parityBad = false
        ∧ ¬ RouteHit ((routed RouteEntry.reset).route q) .trunk plainFrame.id := by
  refine ⟨⟨routed_arrival _, by decide +kernel, by decide +kernel, ?_, fun q hq => absurd hq (Fin.not_lt_zero q)⟩, ?_⟩
  · unfold RouteHit
    decide +kernel
  · intro q hq
    rw [route_routed, ite_self] at hq
    cases hq

/-- The damaged target entry of the tests. -/
def damagedWorld (c : FlowCtx) : State :=
  { world c with targets := live.targets.set 0 { tgt with parityBad := true } }

/-- The world with a damaged route entry 0 and a matching one after it. -/
def routedPast (e : RouteEntry) (d : DefaultAction) : State :=
  { world FlowCtx.reset with
    routes := (live.routes.set 0 { hitRoute with parityBad := true }).set 1 e, defaultAction := d }

theorem route_routedPast (e : RouteEntry) (d : DefaultAction) (n : RouteId) :
    (routedPast e d).route n =
      if n = 1 then e else if n = 0 then { hitRoute with parityBad := true } else RouteEntry.reset := by
  have h : (routedPast e d).route n
      = ((live.setRoute 0 { hitRoute with parityBad := true }).setRoute 1 e).route n := rfl
  have hr : ∀ n : RouteId, live.route n = RouteEntry.reset := by decide +kernel
  rw [h, State.route_setRoute, State.route_setRoute, hr]

/-- A lookup that passes a damaged entry 0 and goes on to entry 1, or to the default action. -/
theorem witness_lookup_goes_on (d : DefaultAction) :
    RoutingArrival (routedPast hitRoute d) .trunk plainFrame
    ∧ (((routedPast hitRoute d).route 0).state = .valid ∧ ((routedPast hitRoute d).route 0).parityBad = true)
    ∧ ((0 : RouteId) < 1 ∧ ((routedPast hitRoute d).route 1).state = .valid
      ∧ ((routedPast hitRoute d).route 1).parityBad = false
      ∧ RouteHit ((routedPast hitRoute d).route 1) .trunk plainFrame.id
      ∧ ∀ q : RouteId, q < 1 → q = 0)
    ∧ ∀ q, q ≠ 0 → ((routedPast RouteEntry.reset d).route q).state ≠ .valid := by
  have h := arrives FlowCtx.reset .trunk (frame := plainFrame) (by decide)
  refine ⟨⟨quiet rfl rfl rfl, h.2, h.3, h.4, h.5⟩, ?_, ⟨by decide, ?_⟩, ?_⟩
  · rw [route_routedPast]
    decide
  · rw [route_routedPast]
    unfold RouteHit
    decide
  · intro q hq
    rw [route_routedPast]
    rw [if_neg hq, ite_self]
    decide

theorem witness_ArrivalsDroppedOrDamaged :
    Running (damagedWorld FlowCtx.reset)
    ∧ ((damagedWorld FlowCtx.reset).mode = .routing
      ∧ plainFrame.id ∉ managementIds (damagedWorld FlowCtx.reset).strap
      ∧ ((damagedWorld FlowCtx.reset).target 0).state = .valid
      ∧ ((damagedWorld FlowCtx.reset).target 0).parityBad = true
      ∧ ∀ m : TargetId, m ≠ 0 → ((damagedWorld FlowCtx.reset).target m).state = .valid →
        ((damagedWorld FlowCtx.reset).target m).parityBad = false)
    ∧ (Unbound (damagedWorld FlowCtx.reset) 0 ∧ BoundTo (damagedWorld loading) 0 0)
    ∧ (RequestOf (world loading) closeFrame 0 ∧ Port.seg1 ≠ .trunk)
    ∧ (ResponseOf (world loading) (answer [0xA4]) 0 ∧ Port.seg1 ≠ ((world loading).target 0).segment.port) := by
  refine ⟨quiet rfl rfl rfl, by decide +kernel, ⟨?_, ?_⟩, ⟨requests _ rfl, by decide⟩,
    ⟨responds _ rfl, by decide +kernel⟩⟩
  · exact unbound
  · have h := binds (c := loading) (by decide) rfl
    exact ⟨h.1, h.2, h.3⟩

/-- The world with a FREE flow and a tracker state at target 0. -/
def tracked (k : Tracker) : State := (world FlowCtx.reset).setTracker 0 k

/-- A first frame with byte 0, the length its byte 1 states, and a data length. -/
def sized (control stated : Byte) (n : Nat) : CanFrame :=
  ⟨idQ, true, true, [control, stated] ++ List.replicate (n - 2) 0x22⟩

/-- An OPENER with a declared length. -/
def declaring (n : Nat) : CanFrame := ⟨idQ, true, true, [0x40] ++ be 2 n ++ List.replicate 61 0x22⟩

theorem witness_TrackerTakesRequests :
    (RoutingArrival (world FlowCtx.reset) .trunk closeFrame ∧ RequestOf (world FlowCtx.reset) closeFrame 0
      ∧ Unbound (world FlowCtx.reset) 0)
    ∧ (frameKind closeFrame = .whole ∧ (UpdateCode.ofByte (requestCode closeFrame)).isSome = true)
    ∧ (frameKind (opener 0x22) = .opener ∧ (UpdateCode.ofByte (requestCode (opener 0x22))).isSome = false
      ∧ firstMalformed (opener 0x22) = false ∧ (world FlowCtx.reset).room .seg0 .dialogue = true)
    ∧ (frameKind (whole []) = .whole ∧ (UpdateCode.ofByte (requestCode (whole []))).isSome = false
      ∧ firstMalformed (whole []) = true)
    ∧ (frameKind (carrier 1 63) = .carrier ∧ ((world FlowCtx.reset).target 0).tracker ≠ .passing
      ∧ ((tracked .passing).target 0).tracker = .passing ∧ (carrier 1 63).fd = true ∧ (carrier 1 63).data ≠ [])
    ∧ (frameKind ⟨idQ, true, true, []⟩ = .carrier ∧ frameKind ⟨idQ, true, true, [0xC0]⟩ = .pace)
    ∧ (firstMalformed (sized 0x00 62 64) = false ∧ firstMalformed (sized 0x00 63 64) = true
      ∧ firstMalformed (sized 0x00 1 3) = false ∧ firstMalformed (sized 0x00 1 2) = true
      ∧ firstMalformed (sized 0x01 62 64) = true)
    ∧ (firstMalformed (declaring 63) = false ∧ firstMalformed (declaring 62) = true
      ∧ firstMalformed (declaring 8190) = false ∧ firstMalformed (declaring 8191) = true
      ∧ frameKind (declaring 63) = .opener) :=
  ⟨⟨arrives _ _ (by decide), requests _ rfl, unbound⟩, by decide +kernel, by decide +kernel, by decide +kernel,
    by decide +kernel, by decide, by decide +kernel, by decide +kernel⟩

theorem witness_ReportsQueued :
    (∀ x ∈ [Alert.window .lapsed 0], x.key ≠ (Alert.fault FaultFlags.clear).key)
    ∧ (Alert.window .closed 1).key = (Alert.window .lapsed 0).key
    ∧ live.faults.get .cell = false ∧ (live.raiseFault .cell).faults.get .cell = true
    ∧ live.room .trunk (.generated .refusal) = true
    ∧ (live.setPort .trunk { PortUnit.reset with conf := .off }).room .trunk (.generated .refusal) = false := by
  decide +kernel

theorem witness_refusal_with_and_without_room :
    (Running live ∧ live.room .trunk (.generated .refusal) = true)
    ∧ (Running fullRequests ∧ fullRequests.room .trunk (.generated .refusal) = false) :=
  ⟨⟨quiet rfl rfl rfl, by decide +kernel⟩,
    ⟨rfl, rfl, .inr nofun, .inr (by decide +kernel), .inl rfl⟩, by decide +kernel⟩

/-! Cells, endings, admission -/

theorem witness_EntryToFailed :
    ((world (bound .done)).flow 0).state.atWork = false ∧ ((world loading).flow 0).state.atWork = true
      ∧ ((world loading).flow 0).binding = some bnd := by decide +kernel

/-- A flow with a record. -/
def withRecord (r : ParcelRecord) : FlowCtx := { bound .idle with record := some r }

theorem witness_ParcelsEndSilently :
    ((world inspecting).flow 0).record = some (.inspected ⟨100, 61, some 1, some 500, 1, 98, false, 0⟩)
    ∧ ((world inspecting).flow 0).held = none ∧ ((world gatedFlow).flow 0).record = some (.gated (.erase 0))
    ∧ ((world (withRecord (.passing 100 61))).flow 0).record = some (.passing 100 61)
    ∧ ((world (withRecord .refused)).flow 0).record = some .refused ∧ ((world loading).flow 0).record = none
    ∧ Unbound (world FlowCtx.reset) 0 ∧ BoundTo (world inspecting) 0 0 :=
  ⟨by decide +kernel, by decide +kernel, by decide +kernel, by decide +kernel, by decide +kernel, by decide +kernel,
    unbound, binds (by decide) rfl⟩

/-- A LOADING flow with hold causes. -/
def heldBy (h : HoldCauses) : FlowCtx := { loading with holds := h }

/-- A LOADING flow with a BLOCK pending. -/
def blockPending : FlowCtx := { loading with pendingReq := some ⟨.block 1 4 false, 500⟩ }

/-- A CLOSE whose payload length is stated one too high, and one with a payload byte too many. -/
def malformedClose : CanFrame := ⟨idQ, true, true, [0x00, 7, 0x64]⟩

def longClose : CanFrame := whole [0x64, 0]

theorem witness_AdmissionRefusesInOrder :
    (AdmissionArrival (world (bound .done)) closeFrame 0 0 ∧ UpdateCode.ofByte (requestCode closeFrame) = some .close
      ∧ ((world (bound .done)).flow 0).state = .done)
    ∧ (AdmissionArrival (world (heldBy ⟨true, true⟩)) closeFrame 0 0
      ∧ ((world (heldBy ⟨true, true⟩)).flow 0).holds.supply = true)
    ∧ (AdmissionArrival (world (heldBy ⟨true, false⟩)) closeFrame 0 0
      ∧ ((world (heldBy ⟨true, false⟩)).flow 0).holds = ⟨true, false⟩)
    ∧ (AdmissionArrival (world blockPending) closeFrame 0 0 ∧ ((world blockPending).flow 0).holds = ⟨false, false⟩
      ∧ ((world blockPending).flow 0).pendingReq.isSome = true)
    ∧ (AdmissionArrival (world (bound .idle)) closeFrame 0 0 ∧ ¬ TakenIn ((world (bound .idle)).flow 0).state .close)
    ∧ (AdmissionArrival (world loading) malformedClose 0 0 ∧ firstMalformed malformedClose = true
      ∧ UpdateCode.ofByte (requestCode malformedClose) = some .close ∧ TakenIn ((world loading).flow 0).state .close)
    ∧ (AdmissionArrival (world loading) ⟨idQ, true, true, [0x00, 7, 0x63]⟩ 0 0
      ∧ firstMalformed ⟨idQ, true, true, [0x00, 7, 0x63]⟩ = true
      ∧ UpdateCode.ofByte (requestCode ⟨idQ, true, true, [0x00, 7, 0x63]⟩) = some .block)
    ∧ (AdmissionArrival (world loading) longClose 0 0 ∧ firstMalformed longClose = false
      ∧ illFormed .close longClose = true) := by
  have idle : ((world (bound .idle)).flow 0).state = .idle := by decide +kernel
  have load : ((world loading).flow 0).state = .loading := by decide +kernel
  refine ⟨⟨admitted rfl (.inl rfl) (by decide) rfl, by decide, by decide +kernel⟩,
    ⟨admitted rfl (.inl rfl) (by decide) rfl, by decide +kernel⟩,
    ⟨admitted rfl (.inl rfl) (by decide) rfl, by decide +kernel⟩,
    ⟨admitted rfl (.inl rfl) (by decide) rfl, by decide +kernel, by decide +kernel⟩,
    ⟨admitted rfl (.inl rfl) (by decide) rfl, by rw [idle]; simp [TakenIn]⟩,
    ⟨admitted rfl (.inl rfl) (by decide) rfl, by decide, by decide, by rw [load]; simp [TakenIn]⟩,
    ⟨admitted rfl (.inl rfl) (by decide) rfl, by decide, by decide⟩,
    ⟨admitted rfl (.inl rfl) (by decide) rfl, by decide, by decide⟩⟩

/-- A request that passes the admission checks. -/
theorem admissible {c : FlowCtx} {frame : CanFrame} {k : UpdateCode}
    (hk : UpdateCode.ofByte (requestCode frame) = some k) (hh : c.holds = ⟨false, false⟩) (hp : c.pendingReq = none)
    (ht : TakenIn c.state k) (hm : firstMalformed frame = false) (hi : illFormed k frame = false) :
    Admissible (world c) 0 frame k := by
  have e : (world c).flow 0 = c := by rw [flow_world, if_pos rfl]
  exact ⟨hk, e ▸ hh, e ▸ hp, e ▸ ht, hm, hi⟩

/-- The image of the tests' flow. -/
theorem img_world (c : FlowCtx) : (world c).image 0 = img := by
  have h : (live.images.set 0 img).get 0 = img := by decide +kernel
  exact h

/-- The one region of the tests' image holds the tests' range. -/
theorem inRegion {c : FlowCtx} (hb : c.binding = some bnd) {frame : CanFrame} (ha : rangeAddress frame = 0x10000)
    (hl : rangeLength frame = 512) : InRegion (world c) 0 0 frame 0 reg := by
  have e : (world c).flow 0 = c := by rw [flow_world, if_pos rfl]
  have hi : (world c).imageOf 0 = img := by
    simp only [State.imageOf, e, hb]
    exact img_world c
  have ht : (world c).target 0 = tgt := by rw [target_world, if_pos rfl]
  have hr : img.regions = [(0, reg)] := by decide +kernel
  refine ⟨by omega, ?_, ?_, ?_, ?_, ?_, ?_⟩
  · rw [ht]
    rfl
  · rw [hi]
    rfl
  · rw [hi]
    decide +kernel
  · rw [hi, hr]
    simp
  · rw [ha, hl]
    decide
  · intro q hq _
    rw [hi, hr] at hq
    simpa using hq

theorem witness_OpenCloseAbandonForwarded :
    (AdmissionArrival (world loading) closeFrame 0 0 ∧ Admissible (world loading) 0 closeFrame .close
      ∧ ((world loading).flow 0).openRegion = some opn)
    ∧ (AdmissionArrival (world loading) abandonFrame 0 0 ∧ Admissible (world loading) 0 abandonFrame .abandon)
    ∧ (AdmissionArrival (world (bound .idle)) openFrame 0 0 ∧ Admissible (world (bound .idle)) 0 openFrame .open_
      ∧ InRegion (world (bound .idle)) 0 0 openFrame 0 reg ∧ rangeAddress openFrame = reg.base
      ∧ rangeLength openFrame = reg.length ∧ openBlockLength openFrame = reg.blockLength
      ∧ ((world (bound .idle)).flow 0).regionState 0 = .erased) :=
  ⟨⟨admitted rfl (.inl rfl) (by decide) rfl,
      admissible (by decide) rfl rfl (by simp [TakenIn, loading, bound]) (by decide) (by decide), by decide +kernel⟩,
    ⟨admitted rfl (.inl rfl) (by decide) rfl,
      admissible (by decide) rfl rfl (by simp [TakenIn, loading, bound]) (by decide) (by decide)⟩,
    ⟨admitted rfl (.inl rfl) (by decide) rfl,
      admissible (by decide) rfl rfl (by simp [TakenIn, bound]) (by decide) (by decide),
      inRegion rfl (by decide) (by decide), by decide, by decide, by decide, by decide +kernel⟩⟩

/-- An ERASE of another range. -/
def eraseOf (address length : Nat) : CanFrame := whole ([0x61] ++ be 4 address ++ be 4 length)

theorem erase_admissible {c : FlowCtx} (hs : c.state = .idle) (hh : c.holds = ⟨false, false⟩) (hp : c.pendingReq = none)
    (frame : CanFrame) (hk : UpdateCode.ofByte (requestCode frame) = some .erase) (hm : firstMalformed frame = false)
    (hi : illFormed .erase frame = false) : Admissible (world c) 0 frame .erase :=
  admissible hk hh hp (.inl ⟨hs, .inl rfl⟩) hm hi

/-- The world with a guard window over the tests' region. -/
def guarded : State :=
  { world (bound .idle) with targets := live.targets.set 0 { tgt with guard0 := some ⟨0x10000, 0⟩ } }

/-- The same with the slot of the tests' region damaged. -/
def damagedSlot : State :=
  (world (bound .idle)).setImage 0 { img with slots := img.slots.set 0 ⟨none, true⟩ }

/-- With one slot of TRUNK left a fatal refusal takes it, and the FLOW alert waits (R78). -/
theorem test_fatal_refusal_before_its_alert :
    let s := guarded.setPort .trunk
      { PortUnit.reset with queue := List.replicate 31 ⟨plainFrame, .generated .reply, false⟩ }
    let s' := after (.frameArrival 9 .trunk eraseFrame) s
    ((s'.port .trunk).queue.map QueuedFrame.cls).count (.generated .refusal) = 1 ∧ (s'.port .trunk).queue.length = 32
      ∧ s'.offers = [] ∧ s'.alerts.entries.length = 1 ∧ s'.freeCount = s.freeCount := by decide +kernel

theorem witness_RangeChecksRefuse :
    (Admissible (world (bound .idle)) 0 (eraseOf 0x10000 0) .erase ∧ rangeLength (eraseOf 0x10000 0) = 0)
    ∧ (rangeLength eraseFrame ≠ 0
      ∧ (guarded.target 0).guards (rangeAddress eraseFrame) (rangeLength eraseFrame) = true
      ∧ ((world (bound .idle)).target 0).guards (rangeAddress eraseFrame) (rangeLength eraseFrame) = false)
    ∧ ((((world (bound .idle)).setImage 0 { img with bad := [.tag] }).imageOf 0).bad ≠ []
      ∧ ∃ k : SlotId, k.val < ((damagedSlot.imageOf 0).regionCount.getD 0)
        ∧ ((damagedSlot.imageOf 0).slots.get k).parityBad = true)
    ∧ (((world (bound .idle)).imageOf 0).bad = []
      ∧ (∀ k : SlotId, k.val < ((world (bound .idle)).imageOf 0).regionCount.getD 0 →
        (((world (bound .idle)).imageOf 0).slots.get k).parityBad = false)
      ∧ ∀ q ∈ ((world (bound .idle)).imageOf 0).regions, q.2.contains (rangeAddress (eraseOf 0x20000 1)) 1 = false)
    ∧ (InRegion (world (bound .idle)) 0 0 eraseFrame 0 reg ∧ InRegion (world (bound .idle)) 0 0 openFrame 0 reg
      ∧ rangeAddress eraseFrame = reg.base ∧ reg.length ≤ rangeLength eraseFrame
        ∧ rangeLength (eraseOf 0x10000 511) < 512
      ∧ openBlockLength openFrame = reg.blockLength ∧ reg.erase = true
      ∧ ((world { bound .idle with binding := some { bnd with regions := [.blank] } }).flow 0).regionState 0 ≠ .erased)
    ∧ { world (bound .idle) with supply := Supply.reset }.supply.state = .low :=
  ⟨⟨erase_admissible rfl rfl rfl _ (by decide) (by decide) (by decide), by decide⟩, by decide +kernel,
    by decide +kernel,
    by decide +kernel,
    ⟨inRegion rfl (by decide) (by decide), inRegion rfl (by decide) (by decide), by decide, by decide, by decide,
      by decide, rfl, by decide +kernel⟩, rfl⟩

theorem witness_range_fields_and_region_state :
    (11 ≤ eraseFrame.data.length ∧ 13 ≤ openFrame.data.length ∧ rangeAddress openFrame = 0x10000
      ∧ rangeLength openFrame = 512 ∧ openBlockLength openFrame = 256)
    ∧ (bound .idle).binding = some bnd ∧ bnd.regions[0]? = some .erased := by decide

/-- The lowest cell of an empty pool. -/
theorem givenCell {u : State} {f : FlowId} (hq : (u.flow f).heldCells.length < (u.flow f).params.cellQuota)
    (hc : (u.cell 0).inUse = false) : CellGiven u f 0 :=
  ⟨hq, hc, fun d hd => absurd hd (Fin.not_lt_zero d)⟩

/-- A pool in full use. -/
def fullPool (s : State) : State := { s with cells := Vector.replicate 512 { Cell.reset with inUse := true } }

theorem fullPool_gives_none (s : State) (f : FlowId) (x : CellId) : ¬ CellGiven (fullPool s) f x := by
  intro h
  have e : ((fullPool s).cell x).inUse = true := by
    show ((Vector.replicate 512 { Cell.reset with inUse := true }).get x).inUse = true
    simp [Vector.get]
  rw [h.unused] at e
  cases e

/-- A flow whose region is VERIFIED. -/
def verifiedFlow : FlowCtx := { bound .idle with binding := some { bnd with regions := [.verified] } }

theorem witness_EraseAndActivateGated :
    (AdmissionArrival (world (bound .idle)) eraseFrame 0 0 ∧ Admissible (world (bound .idle)) 0 eraseFrame .erase
      ∧ InRegion (world (bound .idle)) 0 0 eraseFrame 0 reg ∧ rangeAddress eraseFrame = reg.base
      ∧ reg.length ≤ rangeLength eraseFrame ∧ (world (bound .idle)).supply.state ≠ .low
      ∧ CellGiven ((Received (world (bound .idle)) 0 .trunk).replaceRecord 0) 0 0)
    ∧ (AdmissionArrival (world verifiedFlow) activateFrame 0 0
      ∧ Admissible (world verifiedFlow) 0 activateFrame .activate ∧ ((world verifiedFlow).flow 0).allVerified = true)
    ∧ ({ world verifiedFlow with supply := Supply.reset }.supply.state = .low
      ∧ ((world (bound .idle)).flow 0).allVerified = false) :=
  ⟨⟨admitted rfl (.inl rfl) (by decide) rfl, erase_admissible rfl rfl rfl _ (by decide) (by decide) (by decide),
      inRegion rfl (by decide) (by decide), by decide, by decide, by decide,
      givenCell (by decide +kernel) (by decide +kernel)⟩,
    ⟨admitted rfl (.inl rfl) (by decide) rfl,
      admissible (by decide) rfl rfl (by simp [TakenIn, verifiedFlow, bound]) (by decide) (by decide),
      by decide +kernel⟩, rfl, by decide +kernel⟩

theorem witness_verified_regions_and_gate_sets :
    verifiedFlow.binding = some { bnd with regions := [.verified] } ∧ verifiedFlow.allVerified = true
      ∧ [(1 : FlowId), 3].Pairwise (· < ·) ∧ insertFlow 2 [1, 3] = [1, 2, 3] ∧ insertFlow 3 [1, 3] = [1, 3] := by
  decide

/-- A region of two blocks, the last one of 4 bytes. -/
def opnTwo : OpenRegion := ⟨0, 260, 256, 2⟩

theorem witness_block_lengths_about_the_expected_one :
    (loading.blockFinding opn 1 5 = .early .overrun ∧ loading.blockFinding opn 1 4 = .admitted 0 false
      ∧ loading.blockFinding opn 1 3 = .early .underrun)
    ∧ (loading.blockFinding opnTwo 1 257 = .early .overrun ∧ loading.blockFinding opnTwo 1 256 = .admitted 0 false
      ∧ loading.blockFinding opnTwo 1 255 = .early .underrun) := by decide

theorem witness_BlockChecksInOrder :
    ((2 : Byte) ≠ loading.expectedSeq ∧ loading.lastAccepted ≠ some 2)
    ∧ ((1 : Byte) = loading.expectedSeq ∧ opn.checkCount ≤ { loading with acceptedBlocks := 1 }.acceptedBlocks
      ∧ loading.acceptedBlocks < opn.checkCount)
    ∧ ((9 : Byte) ≠ loading.expectedSeq ∧ { loading with lastAccepted := some 9 }.lastAccepted = some 9) := by decide

/-- A LOADING flow whose block is 98 bytes long. -/
def loadingLong : FlowCtx := { bound .loading with openRegion := some ⟨0, 98, 256, 1⟩ }

theorem witness_BlockTakenAtItsFirstFrame :
    (AdmissionArrival (world loading) blockFrame 0 0 ∧ Admissible (world loading) 0 blockFrame .block
      ∧ ((world loading).flow 0).openRegion = some opn
      ∧ ((world loading).flow 0).blockFinding opn (byteAt blockFrame.data 3) (parcelLength blockFrame - 2) =
        .admitted 0 false
      ∧ ((world loading).flow 0).blockFinding opn 2 4 = .early .sequence
      ∧ CellGiven ((Received (world loading) 0 .trunk).replaceRecord 0) 0 0 ∧ frameKind blockFrame = .whole)
    ∧ (AdmissionArrival (world loadingLong) (opener 0x63) 0 0 ∧ Admissible (world loadingLong) 0 (opener 0x63) .block
      ∧ ((world loadingLong).flow 0).blockFinding ⟨0, 98, 256, 1⟩ (byteAt (opener 0x63).data 4)
        (parcelLength (opener 0x63) - 2) = .admitted 0 false
      ∧ frameKind (opener 0x63) = .opener
      ∧ ((Received (world loadingLong) 0 .trunk).replaceRecord 0).room .seg0 .dialogue = true) :=
  ⟨⟨admitted rfl (.inl rfl) (by decide) rfl,
      admissible (by decide) rfl rfl (by simp [TakenIn, loading, bound]) (by decide) (by decide), by decide +kernel,
      by decide +kernel, by decide +kernel, givenCell (by decide +kernel) (by decide +kernel), by decide⟩,
    ⟨admitted rfl (.inr rfl) (by decide) rfl,
      admissible (by decide) rfl rfl (by simp [TakenIn, loadingLong, bound]) (by decide) (by decide), by decide +kernel,
      by decide, by decide +kernel⟩⟩

/-- The BLOCK of the tests meets a pool without a free cell. -/
theorem witness_block_without_a_cell :
    (AdmissionArrival (fullPool (world loading)) blockFrame 0 0 ∧ Admissible (fullPool (world loading)) 0 blockFrame .block
      ∧ ((fullPool (world loading)).flow 0).openRegion = some opn
      ∧ ((fullPool (world loading)).flow 0).blockFinding opn (byteAt blockFrame.data 3) (parcelLength blockFrame - 2) =
        .admitted 0 false)
    ∧ ∀ x, ¬ CellGiven ((Received (fullPool (world loading)) 0 .trunk).replaceRecord 0) 0 x := by
  have a : AdmissionArrival (world loading) blockFrame 0 0 := admitted rfl (.inl rfl) (by decide) rfl
  have m : Admissible (world loading) 0 blockFrame .block :=
    admissible (by decide) rfl rfl (by simp [TakenIn, loading, bound]) (by decide) (by decide)
  have e : (Received (fullPool (world loading)) 0 .trunk).replaceRecord 0
      = fullPool ((Received (world loading) 0 .trunk).replaceRecord 0) := by decide +kernel
  refine ⟨⟨⟨⟨quiet rfl rfl rfl, a.1.2, a.1.3, a.1.4, a.1.5⟩, ⟨a.2.1, a.2.2, a.2.3⟩, ⟨a.3.1, a.3.2, a.3.3⟩, a.4, a.5⟩,
    ⟨m.1, m.2, m.3, m.4, m.5, m.6⟩, by decide +kernel, by decide +kernel⟩, ?_⟩
  rw [e]
  exact fullPool_gives_none _ _

/-- The OPENER of the tests meets a segment without room. -/
def withoutRoom : State := { world loadingLong with ports := offPort.ports }

theorem witness_opener_without_room :
    AdmissionArrival withoutRoom (opener 0x63) 0 0 ∧ Admissible withoutRoom 0 (opener 0x63) .block
    ∧ CellGiven ((Received withoutRoom 0 .trunk).replaceRecord 0) 0 0
    ∧ ((Received withoutRoom 0 .trunk).replaceRecord 0).room .seg0 .dialogue = false := by
  have a : AdmissionArrival (world loadingLong) (opener 0x63) 0 0 := admitted rfl (.inr rfl) (by decide) rfl
  have m : Admissible (world loadingLong) 0 (opener 0x63) .block :=
    admissible (by decide) rfl rfl (by simp [TakenIn, loadingLong, bound]) (by decide) (by decide)
  exact ⟨⟨⟨quiet rfl rfl rfl, a.1.2, rfl, a.1.4, a.1.5⟩, ⟨a.2.1, a.2.2, a.2.3⟩, ⟨a.3.1, a.3.2, a.3.3⟩, a.4, a.5⟩,
    ⟨m.1, m.2, m.3, m.4, m.5, m.6⟩, givenCell (by decide +kernel) (by decide +kernel), by decide +kernel⟩

theorem witness_OtherFramesAtTheRecord :
    (RecordArrival (world loading) ⟨idQ, true, true, [0xC0]⟩ 0 0 ∧ frameKind ⟨idQ, true, true, [0xC0]⟩ = .pace)
    ∧ (RecordArrival (world loading) (opener 0x22) 0 0 ∧ frameKind (opener 0x22) = .opener
      ∧ UpdateCode.ofByte (requestCode (opener 0x22)) = none ∧ firstMalformed (opener 0x22) = false
      ∧ ((Received (world loading) 0 .trunk).replaceRecord 0).room .seg0 .dialogue = true
      ∧ firstMalformed (whole []) = true)
    ∧ (RecordArrival (world (withRecord (.passing 100 61))) (carrier 1 39) 0 0 ∧ frameKind (carrier 1 39) = .carrier
      ∧ ((world (withRecord (.passing 100 61))).flow 0).record = some (.passing 100 61) ∧ (carrier 1 39).fd = true
      ∧ (carrier 1 39).data ≠ [] ∧ frameKind ⟨idQ, true, true, []⟩ = .carrier)
    ∧ (((world loading).flow 0).record = none ∧ ((world (withRecord .refused)).flow 0).record = some .refused
      ∧ ((world gatedFlow).flow 0).record = some (.gated (.erase 0))) :=
  ⟨⟨reaches rfl (by decide) rfl, by decide⟩, ⟨reaches rfl (by decide) rfl, by decide, by decide, by decide,
    by decide +kernel, by decide⟩, ⟨reaches rfl (by decide) rfl, by decide, by decide +kernel, by decide, by decide,
    by decide⟩, by decide +kernel⟩

/-- An INSPECTED parcel of 130 bytes, 61 seen. -/
def inspectingLong : FlowCtx :=
  { loading with record := some (.inspected ⟨130, 61, some 1, some 500, 1, 128, false, 0⟩) }

theorem witness_CarriersOfAnInspectedParcel :
    (RecordArrival (world inspecting) (carrier 1 47) 0 0 ∧ frameKind (carrier 1 47) = .carrier
      ∧ ((world inspecting).flow 0).record = some (.inspected ⟨100, 61, some 1, some 500, 1, 98, false, 0⟩)
      ∧ ((world inspecting).flow 0).held = none)
    ∧ ((carrier 1 47).fd = true ∧ (carrier 1 47).data ≠ [] ∧ some 1 = some (rollIndex (carrier 1 47))
      ∧ min 63 (100 - 61) < (carrier 1 47).data.length ∧ 100 ≤ 61 + min 63 (100 - 61)
      ∧ ¬ min 63 (100 - 61) < (carrier 1 38).data.length ∧ some 1 ≠ some (rollIndex (carrier 2 47)))
    ∧ (RecordArrival (world inspectingLong) (carrier 1 63) 0 0 ∧ 61 + min 63 (130 - 61) < 130
      ∧ min 63 (130 - 61) < (carrier 1 63).data.length
      ∧ (Received (world inspectingLong) 0 .trunk).room .seg0 .dialogue = true)
    ∧ CellGiven (Received (world inspecting) 0 .trunk) 0 0
    ∧ (∀ x, ¬ CellGiven (fullPool (world inspecting)) 0 x) :=
  ⟨⟨reaches rfl (by decide) rfl, by decide, by decide +kernel, by decide +kernel⟩, by decide,
    ⟨reaches rfl (by decide) rfl, by decide, by decide, by decide +kernel⟩,
    givenCell (by decide +kernel) (by decide +kernel), fullPool_gives_none _ _⟩

/-! Responses, outcomes, deadlines, the window -/

theorem witness_ResponsesAct :
    (ResponseOf (world closing) (answer [0x84]) 0 ∧ RoutingArrival (world closing) .seg0 (answer [0x84])
      ∧ BoundTo (world closing) 0 0 ∧ ((world closing).flow 0).pendingReq = some ⟨.close 0, 500⟩
      ∧ responseOf (answer [0x84]) = some (.positive 0x84 0) ∧ Answers (.close 0) (.positive 0x84 0))
    ∧ (responseOf (answer [0xF1, 0x64, 0x22]) = some (.refusal 0x64 0x22) ∧ Answers (.close 0) (.refusal 0x64 0x22)
      ∧ isWholeRefusal (answer [0xF1, 0x64, 0x22]) = true)
    ∧ (responseOf (answer [0xF2, 0x64]) = some (.wait 0x64) ∧ Answers (.close 0) (.wait 0x64))
    ∧ (responseOf (answer [0x85]) = some (.positive 0x85 0) ∧ ¬ Answers (.close 0) (.positive 0x85 0))
    ∧ (responseOf (answer [0x83]) = none ∧ responseOf (answer [0x86, 9]) = some (.positive 0x86 9)
      ∧ responseOf (answer [0x87, 9]) = none ∧ responseOf (answer [0xF1, 0x64]) = none
      ∧ responseOf { answer [0x84] with fd := false } = none
      ∧ responseOf { opener 0x83 with id := idR } = some (.positive 0x83 1))
    ∧ (lateOf (.refusal 0x66 9) = some ⟨0xF1, some 9⟩ ∧ lateOf (.wait 0x67) = none)
    ∧ (responseOf (answer [0x22]) = none ∧ ResponseOf (world FlowCtx.reset) (answer [0x22]) 0
      ∧ Unbound (world FlowCtx.reset) 0) :=
  ⟨⟨responds _ rfl, arrives _ _ (by decide), binds (by decide) rfl, by decide +kernel, by decide,
      ⟨by decide, fun _ _ _ h => by cases h⟩⟩,
    ⟨by decide, rfl, by decide⟩, ⟨by decide, rfl⟩, ⟨by decide, fun h => absurd h.1 (by decide)⟩,
    by decide, by decide, by decide, responds _ rfl, unbound⟩

/-- A LOADING flow with progress interval 1. -/
def reporting : FlowCtx :=
  { loading with binding := some { bnd with params := { prm with progressInterval := 1 } } }

theorem witness_ResponseOutcomes :
    (((world loading).flow 0).binding = some bnd ∧ bnd.params.progressInterval = 0
      ∧ ((world loading).flow 0).openRegion = some opn)
    ∧ (((world reporting).flow 0).binding = some { bnd with params := { prm with progressInterval := 1 } }
      ∧ ((world reporting).flow 0).openRegion = some opn ∧ ((world reporting).flow 0).sinceProgress + 1 = 1) := by
  decide +kernel

theorem witness_PendingDeadlineExpires :
    Running (world closing)
    ∧ ((world closing).flow 0).binding = some bnd
      ∧ ((world closing).flow 0).pendingReq = some ⟨.close 0, 500⟩ ∧ 500 ≤ max (world closing).now 500
      ∧ max (world closing).now 499 < 500 :=
  ⟨quiet rfl rfl rfl, by decide +kernel⟩

theorem witness_GapDeadlineExpires :
    Running (world inspecting)
    ∧ ((world inspecting).flow 0).target = some 0
      ∧ ((world inspecting).flow 0).record = some (.inspected ⟨100, 61, some 1, some 500, 1, 98, false, 0⟩)
      ∧ 500 ≤ max (world inspecting).now 500 ∧ max (world inspecting).now 499 < 500 :=
  ⟨quiet rfl rfl rfl, by decide +kernel⟩

theorem witness_WindowExpiresAndCloses :
    (Running (world loading) ∧ Running live)
    ∧ ((world loading).window.state = .opened
      ∧ (world loading).window.expiry = some 1000000 ∧ 1000000 ≤ max (world loading).now 1000000
      ∧ max (world loading).now 999999 < 1000000 ∧ live.window.state = .closed)
    ∧ (((world loading).flow 0).state.atWork = true ∧ ((world loading).flow 0).binding = some bnd
      ∧ ((world (bound .done)).flow 0).state = .done
      ∧ ((world FlowCtx.reset).flow 0).state = .free) :=
  ⟨⟨quiet rfl rfl rfl, quiet rfl rfl rfl⟩, by decide +kernel⟩

/-! The check engine -/

theorem witness_CheckValueIsCrc32 :
    ((1 : Word).getLsbD 0 ^^ false) = true ∧ ((1 : Word).getLsbD 0 ^^ true) = false := by decide

theorem witness_EngineChoosesByLevel :
    checking.nextRequester = some (.flow 0) ∧ live.nextRequester = none ∧ checking.engine.isSome = true := by
  decide +kernel

/-- The block of the tests in the engine, read as its cell holds it. -/
theorem checking_engine : checking.engine = some ⟨.flow 0 0 (checking.cell 0), false⟩ := by decide +kernel

/-- The same slice in the engine while the parcel's final frame is not taken. -/
def foldingState : State :=
  { world { inspecting with fifo := [0] } with
    engine := some ⟨.flow 0 0 ⟨true, ⟨[1, 2], some ⟨0, 2⟩, none⟩, false⟩, false⟩ }

theorem witness_FlowSliceFoldsOrIsDiscarded :
    (Running foldingState ∧ Running live)
    ∧ (foldingState.engine = some ⟨.flow 0 0 ⟨true, ⟨[1, 2], some ⟨0, 2⟩, none⟩, false⟩, false⟩
      ∧ (foldingState.flow 0).target = some 0
      ∧ (foldingState.flow 0).record = some (.inspected ⟨100, 61, some 1, some 500, 1, 98, false, 0⟩)
      ∧ (foldingState.flow 0).held ≠ some 0)
    ∧ ((foldingState.abandonFlowSlice 0).engine
        = some ⟨.flow 0 0 ⟨true, ⟨[1, 2], some ⟨0, 2⟩, none⟩, false⟩, true⟩
      ∧ ({ live with engine := some ⟨.image 0 [] 0 none, true⟩ } : State).engine = some ⟨.image 0 [] 0 none, true⟩
      ∧ ({ live with engine := some ⟨.image 0 [] 0 none, false⟩ } : State).engine = some ⟨.image 0 [] 0 none, false⟩
      ∧ live.engine = none) :=
  ⟨⟨quiet rfl rfl rfl, quiet rfl rfl rfl⟩, by decide +kernel⟩

theorem witness_fold_spans :
    (⟨[9, 1, 2, 9], some ⟨1, 2⟩, none⟩ : CellContent).folded = [1, 2]
      ∧ (⟨[1, 2], none, none⟩ : CellContent).folded = [] := by decide

/-- The check entry of the tests' parcel, by the extent's first index, the regions below the open one and the check
index. -/
def entryOf (s : State) : CheckEntry :=
  s.checkList.read
    ((s.imageOf 0).extent.elim 0 Extent.first
      + (((s.imageOf 0).slots.toList.take ((s.flow 0).openRegion.elim 0 OpenRegion.region)).map fun y =>
        match y.region with
        | some g => (g.length + g.blockLength - 1) / g.blockLength
        | none => 0).sum + 0)

theorem witness_VerdictOfTheLastSlice :
    (Running checking ∧ Running matching)
    ∧ (checking.engine = some ⟨.flow 0 0 (checking.cell 0), false⟩
      ∧ (checking.flow 0).target = some 0
      ∧ (checking.flow 0).record = some (.inspected ⟨6, 6, none, none, 1, 4, false, 0⟩)
      ∧ (checking.cell 0).parityBad = false ∧ (checking.flow 0).held = some 0
      ∧ ImageField.extent ∉ (checking.imageOf 0).bad ∧ (checking.flow 0).openRegion.elim 0 OpenRegion.region = 0)
    ∧ (ImageField.extent ∈ ((checking.setImage 0 { img with bad := [.extent] }).imageOf 0).bad
      ∧ ((matching.setTarget 0 { tgt with parityBad := true }).target 0).parityBad = true
      ∧ matching.room .seg1 .dialogue = true ∧ offPort.room .seg0 .dialogue = false)
    ∧ ((entryOf checking).parityBad = false
      ∧ ~~~crcFold (checking.flow 0).acc (checking.cell 0).content.folded ≠
        (entryOf checking).value)
    ∧ (~~~crcFold (matching.flow 0).acc (matching.cell 0).content.folded =
        (entryOf matching).value
      ∧ (matching.target 0).parityBad = false ∧ matching.room .seg0 .dialogue = true)
    ∧ (entryOf { checking with checkList := [(0, ⟨0, true⟩)] }).parityBad = true :=
  ⟨⟨quiet (by decide +kernel) (by decide +kernel) (by decide +kernel), quiet (by decide +kernel) (by decide +kernel) (by decide +kernel)⟩, by decide +kernel⟩

/-- An image in its self-check with a given slice in the engine. -/
def slicing (n : Nat) (e : Option FaultFlag) : State :=
  { live.setImage 0 { img with state := .checking, progress := some 0, acc := some accPreset } with
    engine := some ⟨.image 0 [] n e, false⟩ }

theorem witness_ImageSliceChecks :
    (Running (slicing 1 none) ∧ Running (slicing 2 none))
    ∧ ((slicing 1 none).engine = some ⟨.image 0 [] 1 none, false⟩
      ∧ ((slicing 1 none).image 0).progress.getD 0 + 1 < ((slicing 1 none).image 0).extent.elim 0 Extent.count)
    ∧ (((slicing 2 none).image 0).extent.elim 0 Extent.count ≤ ((slicing 2 none).image 0).progress.getD 0 + 2
      ∧ .expected ∉ ((slicing 2 none).image 0).bad
      ∧ ((slicing 2 none).image 0).expected =
        some (~~~crcFold (((slicing 2 none).image 0).acc.getD 0xFFFFFFFF) []))
    ∧ ((selfChecking.image 0).expected ≠
        some (~~~crcFold ((selfChecking.image 0).acc.getD 0xFFFFFFFF) ((selfChecking.image 0).header)))
    ∧ (slicing 0 (some .checklist)).engine = some ⟨.image 0 [] 0 (some .checklist), false⟩
    ∧ (((slicing 0 none).image 0).extent = some ⟨0, 2⟩ ∧ ((slicing 0 none).image 0).bad = []
      ∧ (∀ k : SlotId, (((slicing 0 none).image 0).slots.get k).parityBad = false)
      ∧ (∀ k < 2, ((slicing 0 none).checkList.read (0 + 0 + k)).parityBad = false)
      ∧ ((CheckMem.read [(1, ⟨0, true⟩)] (0 + 0 + 1)).parityBad = true)
      ∧ ImageField.extent ∈ ({ img with bad := [.extent] } : ImageRecord).bad
      ∧ ImageField.expected ∈ ({ img with bad := [.expected] } : ImageRecord).bad) :=
  ⟨⟨quiet rfl rfl rfl, quiet rfl rfl rfl⟩, by decide +kernel⟩

/-! The supply monitor -/

/-- A conversion in progress that completes at 200. -/
def converting : State := after (.sampleTime 0) live

/-- The parameters of SUPPLY SET with the reset values. -/
def supplyParams : List Byte := [5] ++ be 2 0 ++ be 2 11000 ++ be 2 9500 ++ be 2 11500 ++ [3]

theorem witness_SampleTimesAndSettings :
    (Running live ∧ Running converting)
    ∧ (live.supply.nextSample ≤ max live.now 0 ∧ live.supply.converter = .idle)
    ∧ (converting.supply.nextSample = 5000 ∧ converting.supply.nextSample ≤ max converting.now 5000
      ∧ converting.supply.converter = .converting 200 [] ∧ max converting.now 4999 < converting.supply.nextSample)
    ∧ Asked (asking live .supplySet supplyParams) .supplySet (reqFrame .supplySet supplyParams) []
    ∧ LegalSettings
      ⟨fieldAt supplyParams 0 1, (BitVec.ofNat 16 (fieldAt supplyParams 1 2)).toInt, fieldAt supplyParams 3 2,
        fieldAt supplyParams 5 2, fieldAt supplyParams 7 2, fieldAt supplyParams 9 1⟩
    ∧ ¬ LegalSettings ⟨51, 0, 11000, 9500, 11500, 3⟩ :=
  ⟨⟨quiet rfl rfl rfl, quiet (by decide +kernel) (by decide +kernel) (by decide +kernel)⟩, by decide +kernel, by decide +kernel, asked _ _ rfl (by decide), by constructor <;> decide,
    fun h => absurd h.period (by decide)⟩

theorem witness_CandidateState :
    (9500 ≠ 0 ∧ 9499 < 9500) ∧ (¬ (9500 ≠ 0 ∧ 9500 < 9500) ∧ 11000 ≠ 0 ∧ 10999 < 11000)
    ∧ (¬ (11000 ≠ 0 ∧ 11000 < 11000) ∧ 11499 < 11500 ∧ 11500 ≤ 11500) := by decide

/-- The candidate of a value in the converting state. -/
def candidateOf (raw : Nat) : SupplyState :=
  converting.supply.settings.candidate converting.supply.state
    (min 32767 (Int.toNat (raw - converting.supply.settings.offset)))

/-- The same with a depth of 1. -/
def convertingShallow : State :=
  { converting with supply := { converting.supply with settings := { converting.supply.settings with depth := 1 } } }

/-- Two gate requests are served, and one waits. -/
def gated : State := { live with supply := { live.supply with converter := .converting 200 [1, 3], waiting := [2] } }

theorem gates_gated : GatesAscending gated := by
  refine ⟨by decide, fun done flows h => ?_⟩
  cases h
  decide

theorem witness_ConversionCompletes :
    (Running converting ∧ Running live)
    ∧ (converting.supply.converter = .converting 200 [] ∧ 200 ≤ max converting.now 200
      ∧ max converting.now 199 < 200 ∧ live.supply.converter = .idle)
    ∧ candidateOf 10999 = converting.supply.state ∧ candidateOf 11500 ≠ converting.supply.state
    ∧ (converting.supply.run = none ∧ 1 < converting.supply.settings.depth)
    ∧ (1 ≤ convertingShallow.supply.settings.depth ∧ convertingShallow.supply.settings.depth ≤ 1
      ∧ candidateOf 9499 = .critical)
    ∧ GatesAscending gated ∧ gated.supply.converter = .converting 200 [1, 3] :=
  ⟨⟨quiet (by decide +kernel) (by decide +kernel) (by decide +kernel), quiet rfl rfl rfl⟩, by decide +kernel,
    by decide +kernel, by decide +kernel, by decide +kernel, by decide +kernel, gates_gated, rfl⟩

theorem witness_SupplyHoldsFlows :
    ((world (bound .done)).flow 0).state.atWork = false
    ∧ (((world loading).flow 0).state.atWork = true ∧ ((world loading).flow 0).record = none
      ∧ ((world (withRecord .refused)).flow 0).state.atWork = true
      ∧ ((world (withRecord .refused)).flow 0).record = some .refused
      ∧ ((world (withRecord (.passing 100 61))).flow 0).record = some (.passing 100 61))
    ∧ (((world inspecting).flow 0).state.atWork = true ∧ ((world inspecting).flow 0).target = some 0
      ∧ ((world inspecting).flow 0).record = some (.inspected ⟨100, 61, some 1, some 500, 1, 98, false, 0⟩))
    ∧ (((world gatedFlow).flow 0).state.atWork = true ∧ ((world gatedFlow).flow 0).target = some 0
      ∧ ((world gatedFlow).flow 0).record = some (.gated (.erase 0))) := by decide +kernel

/-- A GATED ACTIVATE of a flow that the master holds. -/
def heldActivate : FlowCtx :=
  { bound .idle with record := some (.gated .activate), held := some 0, holds := ⟨true, false⟩ }

theorem witness_GateAnswersAct :
    (((world gatedFlow).flow 0).target = some 0 ∧ ((world gatedFlow).flow 0).record = some (.gated (.erase 0))
      ∧ (world gatedFlow).supply.state = .normal ∧ (world gatedFlow).supply.settings.lowLimit ≤ 11000
      ∧ ¬ (world gatedFlow).supply.settings.lowLimit ≤ 10999
      ∧ ((world gatedFlow).target 0).parityBad = false ∧ ((world gatedFlow).heldCell 0).parityBad = false
      ∧ (world gatedFlow).room .seg0 .dialogue = true ∧ { offPort with mode := .routing }.room .seg0 .dialogue = false
      ∧ ((damagedWorld gatedFlow).target 0).parityBad = true
      ∧ (((world gatedFlow).setCell 0 ⟨true, ⟨[], none, none⟩, true⟩).heldCell 0).parityBad = true)
    ∧ (((world heldActivate).flow 0).record = some (.gated .activate)
      ∧ ((world heldActivate).flow 0).holds ≠ ⟨false, false⟩)
    ∧ (∀ g ∈ [Gated.erase 0, .activate], ((world loading).flow 0).record ≠ some (.gated g))
    ∧ (live.supply.periodicDue = false ∧ live.supply.waiting = []
      ∧ (live.gateRequest 0).supply.waiting = [] ∧ (converting.gateRequest 0).supply.waiting ≠ []) := by decide +kernel

/-! Requests -/

/-- A request frame with another code. -/
def oddFrame (d : List Byte) : CanFrame := ⟨requestId 0, true, true, d⟩

def oddState (d : List Byte) : State := { live with mgmt := ⟨[oddFrame d], none⟩ }

theorem witness_RequestsTurnedAway :
    ((oddState [1]).resetHeld = false ∧ (oddState [1]).mgmt.slot = none ∧ (oddState [1]).mgmt.queue = [oddFrame [1]]
      ∧ (oddFrame [1]).data.length < 2)
    ∧ (2 ≤ (oddFrame [3, 9]).data.length ∧ Request.ofByte (byteAt (oddFrame [3, 9]).data 0) = none)
    ∧ (Request.ofByte (byteAt (oddFrame [0x40, 9, 1]).data 0) = some .windowOpen
      ∧ (oddFrame [0x40, 9, 1]).data.length < 2 + Request.windowOpen.paramBytes (oddFrame [0x40, 9, 1]).data
      ∧ Request.ofByte (byteAt (oddFrame [0x40, 9, 1]).data 0) ≠ some .status)
    ∧ ({ live with mgmt := ⟨[], some (oddFrame [])⟩ } : State).mgmt.slot ≠ none := by decide +kernel

/-- A request to take and an alert to move: two actions that are due. -/
def dueState : State := (asking live .status []).queueAlert (.window .closed 0)

theorem witness_DueActionsTakenAtOnce :
    (live.resetHeld = false ∧ ({ live with mgmt := ⟨[], some (oddFrame [])⟩ } : State).mgmt.slot = some (oddFrame [])
      ∧ live.room .trunk (.generated .reply) = true ∧ live.mgmt.slot = none
      ∧ (live.queueAlert (.window .closed 0)).alerts.entries = [.window .closed 0] ∧ live.alerts.inFlight = false
      ∧ live.room .trunk (.generated .alert) = true ∧ live.alerts.entries = [])
    ∧ ((Instr.sampleTime 0).fromOutside = true ∧ dueState.resetHeld = false ∧ dueState.atOnce = [.take, .alert]
      ∧ (asking live .status []).atOnce = [.take] ∧ live.atOnce = [] ∧ dueState.mgmt.slot = none
      ∧ dueState.mgmt.queue.head? = some (reqFrame .status []))
    ∧ (((generatedFrame idQ (List.replicate 8 1)).data.length = 8
        ∧ (generatedFrame idQ (List.replicate 9 1)).data.length = 12)
      ∧ (generatedFrame idQ (List.replicate 64 1)).data.length = 64)
    ∧ Running live :=
  ⟨by decide +kernel, by decide +kernel, by decide, quiet rfl rfl rfl⟩

/-- A refusal offered to TRUNK beside an alert that can move, with one free slot for the two. -/
def offering (waiting : Nat) : State :=
  { (live.setPort .trunk
      { PortUnit.reset with queue := List.replicate waiting ⟨plainFrame, .generated .refusal, false⟩ }).queueAlert
      (.window .closed 0) with
    offers := [⟨.generated .refusal, plainFrame, false⟩] }

theorem witness_offered_frame_beside_an_alert :
    ((offering 31).alerts.entries = [.window .closed 0] ∧ (offering 31).alerts.inFlight = false
      ∧ (offering 31).room .trunk (.generated .alert) = true ∧ (offering 31).mgmt.slot = none
      ∧ 32 < ((offering 31).port .trunk).queue.length + (offering 31).offers.length + 1
      ∧ (offering 31).contested = true)
    ∧ (32 ≥ ((offering 30).port .trunk).queue.length + (offering 30).offers.length + 1
      ∧ (offering 30).contested = false)
    ∧ ((offering 30).trunkTakes.port .trunk).queue.length = 31 := by decide +kernel

/-- A frame that a rule sends before the alert leaves the order decided. -/
theorem witness_offered_frame_before_an_alert :
    ({ offering 31 with alerts := ⟨[], false⟩ } : State).alerts.entries = [] ∧ (offering 31).alerts.entries ≠ []
      ∧ (({ offering 31 with alerts := ⟨[], false⟩ } : State).offersComeFirst.queueAlert (.window .closed 0)).contested
        = false := by decide +kernel

/-- While a reply waits it can come between as well. -/
theorem witness_offered_frame_beside_a_reply :
    let s := { offering 31 with mgmt := ⟨[], some plainFrame⟩ }
    s.replyReady = true ∧ s.alertReady = true ∧ s.trunkClaims = [.offer, .reply, .alert] ∧ s.contested = true := by
  decide +kernel

theorem witness_QueriesAnswer :
    Asked (asking live .status []) .status (reqFrame .status []) []
    ∧ Asked (asking live .supplyQuery []) .supplyQuery (reqFrame .supplyQuery []) []
    ∧ (Asked (asking live .flowQuery [15]) .flowQuery (reqFrame .flowQuery [15]) []
      ∧ fieldAt (params (reqFrame .flowQuery [15])) 0 1 = (15 : FlowId).val
      ∧ 16 ≤ fieldAt (params (reqFrame .flowQuery [16])) 0 1)
    ∧ (Asked (asking (world loading) .imageQuery [0]) .imageQuery (reqFrame .imageQuery [0]) []
      ∧ fieldAt (params (reqFrame .imageQuery [0])) 0 1 = (0 : ImageId).val ∧ ((world loading).image 0).bad = []
      ∧ (∀ k : SlotId, (((world loading).image 0).slots.get k).parityBad = false)
      ∧ ({ img with bad := [.tag] } : ImageRecord).bad ≠ []
      ∧ 16 ≤ fieldAt (params (reqFrame .imageQuery [16])) 0 1) :=
  ⟨asked _ _ rfl (by decide), asked _ _ rfl (by decide), ⟨asked _ _ rfl (by decide), by decide, by decide⟩,
    ⟨asked _ _ rfl (by decide), by decide, by decide +kernel, by decide +kernel, by decide, by decide⟩⟩

theorem witness_FaultsClearClears :
    Asked (asking live .faultsClear [0x1F]) .faultsClear (reqFrame .faultsClear [0x1F]) []
    ∧ ((byteAt (params (reqFrame .faultsClear [0x1F])) 0).toNat = 0x1F
      ∧ (byteAt (params (reqFrame .faultsClear [0x20])) 0).getLsbD 5 = true) :=
  ⟨asked _ _ rfl (by decide), by decide⟩

theorem witness_PortsSetAndRestarted :
    (Asked (asking live .portSet [4, 3, 4, 1]) .portSet (reqFrame .portSet [4, 3, 4, 1]) []
      ∧ fieldAt (params (reqFrame .portSet [4, 3, 4, 1])) 0 1 = portCode .seg3
      ∧ [NominalRate.k125, .k250, .k500, .k1000][fieldAt (params (reqFrame .portSet [4, 3, 4, 1])) 1 1]? = some .k1000
      ∧ [DataRate.m1, .m2, .m4, .m5, .m8][fieldAt (params (reqFrame .portSet [4, 3, 4, 1])) 2 1]? = some .m8
      ∧ fieldAt (params (reqFrame .portSet [4, 3, 4, 1])) 3 1 = Bool.toNat true
      ∧ 4 < fieldAt (params (reqFrame .portSet [5, 3, 4, 1])) 0 1)
    ∧ (Asked (asking offPort .portRestart [1]) .portRestart (reqFrame .portRestart [1]) []
      ∧ fieldAt (params (reqFrame .portRestart [1])) 0 1 = portCode .seg0 ∧ (offPort.port .seg0).conf = .off
      ∧ (offPort.port .seg1).conf ≠ .off ∧ 4 < fieldAt (params (reqFrame .portRestart [5])) 0 1)
    ∧ ((offPort.port .seg0).conf.carries = false ∧ (live.port .seg3).conf.carries = true ∧ plainFrame.fd = false ∧ closeFrame.fd = true
      ∧ closeFrame.brs = true) :=
  ⟨⟨asked _ _ rfl (by decide), by decide, by decide, by decide, by decide, by decide⟩,
    ⟨asked _ _ rfl (by decide), by decide, by decide, by decide, by decide⟩, by decide⟩

theorem witness_port_codes_one_past_the_last :
    (Asked (asking live .portSet [4, 4, 4, 1]) .portSet (reqFrame .portSet [4, 4, 4, 1]) []
      ∧ 3 < fieldAt (params (reqFrame .portSet [4, 4, 4, 1])) 1 1)
    ∧ (Asked (asking live .portSet [4, 3, 5, 1]) .portSet (reqFrame .portSet [4, 3, 5, 1]) []
      ∧ 4 < fieldAt (params (reqFrame .portSet [4, 3, 5, 1])) 2 1)
    ∧ (Asked (asking live .portSet [4, 3, 4, 2]) .portSet (reqFrame .portSet [4, 3, 4, 2]) []
      ∧ 1 < fieldAt (params (reqFrame .portSet [4, 3, 4, 2])) 3 1) :=
  ⟨⟨asked _ _ rfl (by decide), by decide⟩, ⟨asked _ _ rfl (by decide), by decide⟩, asked _ _ rfl (by decide),
    by decide⟩

/-- The parameters of ROUTE WRITE for the tests' route entry. -/
def routeParams (n class_ : Byte) : List Byte := [n, 1, 0] ++ be 4 0x100 ++ be 4 0x700 ++ [0x01, 0x02, class_]

theorem witness_RoutesWrittenReadAndEnabled :
    (Asked (asking live .routeWrite (routeParams 95 0)) .routeWrite (reqFrame .routeWrite (routeParams 95 0)) []
      ∧ fieldAt (params (reqFrame .routeWrite (routeParams 95 0))) 0 1 = (95 : RouteId).val
      ∧ SpellsRoute (params (reqFrame .routeWrite (routeParams 95 0))) hitRoute
      ∧ 95 < fieldAt (params (reqFrame .routeWrite (routeParams 96 0))) 0 1
      ∧ (∀ e, ¬ SpellsRoute (params (reqFrame .routeWrite (routeParams 95 2))) e)
      ∧ fieldAt (params (reqFrame .routeWrite [0, 0])) 1 1 = 0)
    ∧ (Asked (asking live .routeRead [95]) .routeRead (reqFrame .routeRead [95]) []
      ∧ fieldAt (params (reqFrame .routeRead [95])) 0 1 = (95 : RouteId).val
      ∧ ¬ ((live.route 95).state = .valid ∧ (live.route 95).parityBad = true)
      ∧ ((routed { hitRoute with parityBad := true }).route 0).state = .valid
      ∧ ((routed { hitRoute with parityBad := true }).route 0).parityBad = true
      ∧ 95 < fieldAt (params (reqFrame .routeRead [96])) 0 1)
    ∧ (Asked (asking live .routingEnable [1]) .routingEnable (reqFrame .routingEnable [1]) []
      ∧ fieldAt (params (reqFrame .routingEnable [1])) 0 1 ≤ 1
      ∧ 1 < fieldAt (params (reqFrame .routingEnable [2])) 0 1) := by
  refine ⟨⟨asked _ _ rfl (by decide), by decide, by constructor <;> decide, by decide, ?_, by decide⟩,
    ⟨asked _ _ rfl (by decide), by decide, by decide +kernel, by decide +kernel, by decide +kernel, by decide⟩,
    asked _ _ rfl (by decide), by decide, by decide⟩
  intro e h
  have hc := h.cls
  have hv : fieldAt (params (reqFrame .routeWrite (routeParams 95 2))) 13 1 = 2 := by decide
  rw [hv] at hc
  cases he : e.cls <;> simp [he, RouteClass.code] at hc

theorem spells_tgt : SpellsTarget (params (reqFrame .targetWrite (targetParams 31))) tgt where
  state := by decide
  segment := by decide
  request := by unfold SpellsId; decide
  response := by unfold SpellsId; decide
  guard0 := by show fieldAt _ _ _ = 0; decide
  guard1 := by show fieldAt _ _ _ = 0; decide
  fresh := by decide

theorem witness_TargetsWritten :
    (Asked (asking live .targetWrite (targetParams 31)) .targetWrite (reqFrame .targetWrite (targetParams 31)) []
      ∧ fieldAt (params (reqFrame .targetWrite (targetParams 31))) 0 1 = (31 : TargetId).val
      ∧ SpellsTarget (params (reqFrame .targetWrite (targetParams 31))) tgt ∧ Unbound live 31
      ∧ (∀ m, (live.target m).state ≠ .valid)
      ∧ ¬ (tgt.request = tgt.response ∨ tgt.request ∈ managementIds live.strap
        ∨ tgt.response ∈ managementIds live.strap))
    ∧ (31 < fieldAt (params (reqFrame .targetWrite (targetParams 32))) 0 1
      ∧ fieldAt (params (reqFrame .targetWrite ([0, 0] ++ List.replicate 23 0))) 1 1 = 0
      ∧ 1 < fieldAt (params (reqFrame .targetWrite [0, 2])) 1 1)
    ∧ (BoundTo (world loading) 0 0 ∧ (0 : TargetId) ≠ 31 ∧ ((world loading).target 0).state = .valid
      ∧ tgt.request = ((world loading).target 0).request ∧ ((damagedWorld loading).target 0).parityBad = true) := by
  refine ⟨⟨asked _ _ rfl (by decide), by decide, spells_tgt, ?_, by decide +kernel, by decide⟩, by decide,
    binds (by decide) rfl, by decide, by decide +kernel, by decide +kernel, by decide +kernel⟩
  intro g hg
  exact absurd (by rw [flow_live]; rfl) hg

theorem witness_TargetsRead :
    (Asked (asking (world loading) .targetRead [0]) .targetRead (reqFrame .targetRead [0]) []
      ∧ fieldAt (params (reqFrame .targetRead [0])) 0 1 = (0 : TargetId).val ∧ BoundTo (world loading) 0 0
      ∧ ¬ (((world loading).target 0).state = .valid ∧ ((world loading).target 0).parityBad = true))
    ∧ (((damagedWorld loading).target 0).state = .valid ∧ ((damagedWorld loading).target 0).parityBad = true
      ∧ Unbound (world FlowCtx.reset) 0 ∧ 31 < fieldAt (params (reqFrame .targetRead [32])) 0 1) :=
  ⟨⟨asked _ _ rfl (by decide), by decide, binds (by decide) rfl, by decide +kernel⟩, by decide +kernel,
    by decide +kernel,
    unbound, by decide⟩

/-- The parameters of IMAGE BEGIN. -/
def beginParams (i regions : Byte) (count : Nat) : List Byte := [i] ++ be 4 5 ++ [regions] ++ be 2 count

theorem witness_ImagesBegunAndDiscarded :
    (Asked (asking live .imageBegin (beginParams 15 8 4096)) .imageBegin (reqFrame .imageBegin (beginParams 15 8 4096)) []
      ∧ fieldAt (params (reqFrame .imageBegin (beginParams 15 8 4096))) 0 1 = (15 : ImageId).val
      ∧ fieldAt (params (reqFrame .imageBegin (beginParams 15 8 4096))) 5 1 = 8
      ∧ fieldAt (params (reqFrame .imageBegin (beginParams 15 8 4096))) 6 2 = 4096
      ∧ ¬ LoadFieldsDamaged (live.image 15) ∧ (live.image 15).refCount = 0 ∧ (live.image 15).state = .empty
      ∧ firstFit 4096 0 live.extents = some 0 ∧ firstFit 4096 0 [⟨0, 0, 1⟩] = none)
    ∧ (fieldAt (params (reqFrame .imageBegin (beginParams 16 1 1))) 0 1 = 16
      ∧ fieldAt (params (reqFrame .imageBegin (beginParams 0 9 1))) 5 1 = 9
      ∧ fieldAt (params (reqFrame .imageBegin (beginParams 0 1 4097))) 6 2 = 4097)
    ∧ (LoadFieldsDamaged { img with bad := [.extent] } ∧ img.refCount ≠ 0
      ∧ (loadingImage.image 0).state ≠ .empty)
    ∧ (ExtentsOrdered [⟨0, 0, 1⟩, ⟨1, 5, 4091⟩] ∧ 0 < 4)
    ∧ (Asked (asking loadingImage .imageDiscard [0]) .imageDiscard (reqFrame .imageDiscard [0]) []
      ∧ .refCount ∉ (loadingImage.image 0).bad
      ∧ ImageField.refCount ∈ ({ img with bad := [.refCount] } : ImageRecord).bad
      ∧ (world loading).flowsNaming 0 = 1 ∧ loadingImage.flowsNaming 0 = 0 ∧ (loadingImage.image 0).refCount = 0
      ∧ ((world loading).image 0).refCount ≠ 0 ∧ 15 < fieldAt (params (reqFrame .imageDiscard [16])) 0 1) :=
  ⟨⟨asked _ _ rfl (by decide), by decide, by decide, by decide, by decide +kernel, by decide +kernel, by decide +kernel,
      by decide, by decide⟩, by decide, by decide +kernel, ⟨by unfold ExtentsOrdered; decide, by decide⟩,
    asked _ _ rfl (by decide), by decide +kernel, by decide, by decide +kernel, by decide +kernel, by decide +kernel,
    by decide +kernel, by decide⟩

theorem witness_extent_goes_between :
    (∀ e ∈ [(⟨0, 0, 1⟩ : ExtentEntry)], e.first ≤ (⟨2, 1, 4⟩ : ExtentEntry).first)
      ∧ (∀ e ∈ [(⟨1, 5, 4091⟩ : ExtentEntry)], (⟨2, 1, 4⟩ : ExtentEntry).first < e.first)
      ∧ insertExtent ⟨2, 1, 4⟩ [⟨0, 0, 1⟩, ⟨1, 5, 4091⟩] = [⟨0, 0, 1⟩, ⟨2, 1, 4⟩, ⟨1, 5, 4091⟩] := by decide

/-- The parameters of IMAGE REGION for the tests' region. -/
def regionParams (i slot sizeCode : Byte) : List Byte :=
  [i, slot] ++ be 4 0x10000 ++ [sizeCode] ++ be 4 512 ++ be 2 256 ++ [1]

/-- The parameters of IMAGE CHECKS for one value. -/
def checkParams (start : Nat) : List Byte := [0] ++ be 2 start ++ [1] ++ be 4 0xCBF43926

/-- A LOADING image with two regions, the second loaded. -/
def loadingTwo : State :=
  live.setImage 0
    { ImageRecord.reset with
      state := .loading, regionCount := some 2, slots := ImageRecord.reset.slots.set 1 ⟨some reg, false⟩,
      extent := some ⟨10, 2⟩, written := some [false, false] }

theorem witness_RegionsAndChecksLoaded :
    (Asked (asking loadingImage .imageRegion (regionParams 0 0 0)) .imageRegion
        (reqFrame .imageRegion (regionParams 0 0 0)) []
      ∧ SpellsRegion (params (reqFrame .imageRegion (regionParams 0 0 0))) reg
      ∧ (∀ g, ¬ SpellsRegion (params (reqFrame .imageRegion (regionParams 0 0 16))) g)
      ∧ ¬ LoadFieldsDamaged (loadingImage.image 0) ∧ (loadingImage.image 0).refCount = 0
      ∧ (loadingImage.image 0).state = .loading ∧ 0 < (loadingImage.image 0).regionCount.getD 0
      ∧ (loadingImage.image 0).regionCount.getD 0 ≤
        fieldAt (params (reqFrame .imageRegion (regionParams 0 1 0))) 1 1
      ∧ ∀ j : SlotId, ((loadingImage.image 0).slots.get j).region = none)
    ∧ ((0 : SlotId).val < (loadingTwo.image 0).regionCount.getD 0
      ∧ ((loadingTwo.image 0).slots.get 1).region = some reg
      ∧ (∀ j : SlotId, ((loadingTwo.image 0).slots.get j).parityBad = false)
      ∧ (({ loadingTwo.image 0 with slots := (loadingTwo.image 0).slots.set 1 ⟨none, true⟩ } : ImageRecord).slots.get
        1).parityBad = true
      ∧ LoadFieldsDamaged { loadingTwo.image 0 with bad := [.written] })
    ∧ (Asked (asking loadingImage .imageChecks (checkParams 1)) .imageChecks (reqFrame .imageChecks (checkParams 1)) []
      ∧ fieldAt (params (reqFrame .imageChecks (checkParams 1))) 3 1 = 1
      ∧ fieldAt (params (reqFrame .imageChecks (checkParams 1))) 1 2 + 1 ≤ 2
      ∧ 2 < fieldAt (params (reqFrame .imageChecks (checkParams 2))) 1 2 + 1
      ∧ (loadingImage.image 0).extent = some ⟨10, 2⟩ ∧ (loadingImage.image 0).written = some [false, false]
      ∧ loadingImage.checkList.wf = true) := by
  refine ⟨⟨asked _ _ rfl (by decide), by constructor <;> decide, ?_, by decide +kernel, by decide +kernel,
    by decide +kernel, by decide +kernel, by decide +kernel, by decide +kernel⟩, by decide +kernel,
    asked _ _ rfl (by decide), by decide, by decide, by decide, by decide +kernel, by decide +kernel, by decide +kernel⟩
  intro g h
  have hc := h.sizeCode
  have hv : fieldAt (params (reqFrame .imageRegion (regionParams 0 0 16))) 6 1 = 16 := by decide
  have hl := h.legal.1
  omega

/-- The parameters of IMAGE CHECKS for an image and a number of values. -/
def manyChecks (i n : Nat) : List Byte := b1 i ++ be 2 0 ++ b1 n ++ List.replicate (4 * n) 0

theorem witness_check_counts_at_their_bounds :
    (Asked (asking loadingImage .imageChecks (manyChecks 0 0)) .imageChecks
        (reqFrame .imageChecks (manyChecks 0 0)) []
      ∧ fieldAt (params (reqFrame .imageChecks (manyChecks 0 0))) 3 1 = 0)
    ∧ (Asked (asking loadingImage .imageChecks (manyChecks 0 13)) .imageChecks
        (reqFrame .imageChecks (manyChecks 0 13)) []
      ∧ fieldAt (params (reqFrame .imageChecks (manyChecks 0 13))) 3 1 = 13)
    ∧ (Asked (asking loadingImage .imageChecks (manyChecks 0 14)) .imageChecks
        (reqFrame .imageChecks (manyChecks 0 14)) []
      ∧ 13 < fieldAt (params (reqFrame .imageChecks (manyChecks 0 14))) 3 1)
    ∧ (Asked (asking loadingImage .imageChecks (manyChecks 16 1)) .imageChecks
        (reqFrame .imageChecks (manyChecks 16 1)) []
      ∧ 15 < fieldAt (params (reqFrame .imageChecks (manyChecks 16 1))) 0 1)
    ∧ (Asked (asking loadingImage .imageRegion (regionParams 16 0 0)) .imageRegion
        (reqFrame .imageRegion (regionParams 16 0 0)) []
      ∧ 15 < fieldAt (params (reqFrame .imageRegion (regionParams 16 0 0))) 0 1) :=
  ⟨⟨asked _ _ rfl (by decide), by decide⟩, ⟨asked _ _ rfl (by decide), by decide⟩,
    ⟨asked _ _ rfl (by decide), by decide⟩, ⟨asked _ _ rfl (by decide), by decide⟩, asked _ _ rfl (by decide),
    by decide⟩

/-- A LOADING image that is complete, and the same with a damaged slot. -/
def completeImage (bad : Bool) : State :=
  live.setImage 0
    { ImageRecord.reset with
      state := .loading, regionCount := some 1, slots := ImageRecord.reset.slots.set 0 ⟨some reg, bad⟩,
      extent := some ⟨0, 2⟩, written := some [true, true] }

theorem witness_ImageEndStartsTheSelfCheck :
    (Asked (asking (completeImage false) .imageEnd ([0] ++ be 4 0 ++ [7])) .imageEnd
        (reqFrame .imageEnd ([0] ++ be 4 0 ++ [7])) []
      ∧ fieldAt (params (reqFrame .imageEnd ([0] ++ be 4 0 ++ [7]))) 0 1 = (0 : ImageId).val
      ∧ fieldAt (params (reqFrame .imageEnd ([0] ++ be 4 0 ++ [7]))) 5 1 ≤ 7
      ∧ 7 < fieldAt (params (reqFrame .imageEnd ([0] ++ be 4 0 ++ [8]))) 5 1)
    ∧ (¬ LoadFieldsDamaged ((completeImage false).image 0) ∧ ((completeImage false).image 0).refCount = 0
      ∧ ((completeImage false).image 0).state = .loading ∧ ((completeImage false).image 0).complete = true
      ∧ ∀ x ∈ ((completeImage false).image 0).usedSlots, x.parityBad = false)
    ∧ ((∃ x ∈ ((completeImage true).image 0).usedSlots, x.parityBad = true) ∧ (loadingImage.image 0).complete = false
      ∧ img.refCount ≠ 0 ∧ (live.image 0).state ≠ .loading) :=
  ⟨⟨asked _ _ rfl (by decide), by decide, by decide, by decide⟩, by decide +kernel, by decide +kernel⟩

theorem witness_WindowOpensRenewsAndCloses :
    (Asked (asking (routed hitRoute) .windowOpen (be 2 600)) .windowOpen (reqFrame .windowOpen (be 2 600)) []
      ∧ fieldAt (params (reqFrame .windowOpen (be 2 600))) 0 2 = 600
      ∧ fieldAt (params (reqFrame .windowOpen (be 2 1))) 0 2 = 1
      ∧ fieldAt (params (reqFrame .windowOpen (be 2 0))) 0 2 = 0
      ∧ 600 < fieldAt (params (reqFrame .windowOpen (be 2 601))) 0 2 ∧ live.mode = .passthrough
      ∧ live.window.state = .closed ∧ { live with mode := .routing }.mode = .routing)
    ∧ (Asked (asking (world loading) .windowRenew [2]) .windowRenew (reqFrame .windowRenew [2]) []
      ∧ fieldAt (params (reqFrame .windowRenew [2])) 0 1 = 2 ∧ fieldAt (params (reqFrame .windowRenew [1])) 0 1 = 1
      ∧ fieldAt (params (reqFrame .windowRenew [0])) 0 1 = 0 ∧ fieldAt (params (reqFrame .windowRenew [3])) 0 1 = 3
      ∧ (world loading).window.state = .opened ∧ (world loading).window.renewal = .none
      ∧ (world loading).window.period = some 1000 ∧ ((world loading).setRenewal .armed).window.renewal = .armed)
    ∧ (Asked (asking (world loading) .windowClose []) .windowClose (reqFrame .windowClose []) []
      ∧ Asked (asking live .windowClose []) .windowClose (reqFrame .windowClose []) []) :=
  ⟨⟨asked _ _ rfl (by decide), by decide, by decide, by decide, by decide, rfl, rfl, rfl⟩,
    ⟨asked _ _ rfl (by decide), by decide, by decide, by decide, by decide, rfl, rfl, rfl, rfl⟩,
    asked _ _ rfl (by decide), asked _ _ rfl (by decide)⟩

/-- The parameters of FLOW BIND with explicit parameter bytes. -/
def bindParams (f n i mask quota : Byte) : List Byte := [f, n, i, mask, 7, 0, 0, 1, 1, 1, quota]

theorem spells_params : SpellsParams (params (reqFrame .flowBind (bindParams 0 0 0 0 8))) ⟨7, 16, 0, 10, 100, 10, 8⟩ := by
  constructor <;> (unfold BoundParam; decide)

theorem spells_defaults : SpellsParams (params (reqFrame .flowBind (bindParams 0 0 0 0x7F 7))) prm := by
  constructor <;> (unfold BoundParam; decide)

theorem witness_FlowsBoundAndReleased :
    (Asked (asking (world FlowCtx.reset) .flowBind (bindParams 0 0 0 0 8)) .flowBind
        (reqFrame .flowBind (bindParams 0 0 0 0 8)) []
      ∧ fieldAt (params (reqFrame .flowBind (bindParams 0 0 0 0 8))) 0 1 = (0 : FlowId).val
      ∧ (world FlowCtx.reset).window.state = .opened ∧ ((world FlowCtx.reset).flow 0).state = .free
      ∧ SpellsParams (params (reqFrame .flowBind (bindParams 0 0 0 0 8))) ⟨7, 16, 0, 10, 100, 10, 8⟩
      ∧ Sound (world FlowCtx.reset) 0 ∧ Unbound (world FlowCtx.reset) 0 ∧ ((world FlowCtx.reset).image 0).bad = []
      ∧ ((world FlowCtx.reset).image 0).state = .ready ∧ ((world FlowCtx.reset).image 1).state ≠ .ready)
    ∧ (15 < fieldAt (params (reqFrame .flowBind (bindParams 16 0 0 0 8))) 0 1
      ∧ 31 < fieldAt (params (reqFrame .flowBind (bindParams 0 32 0 0 8))) 1 1
      ∧ 15 < fieldAt (params (reqFrame .flowBind (bindParams 0 0 16 0 8))) 2 1
      ∧ (∀ q, ¬ SpellsParams (params (reqFrame .flowBind (bindParams 0 0 0 0 7))) q)
      ∧ live.window.state = .closed)
    ∧ (((damagedWorld FlowCtx.reset).target 0).state = .valid
      ∧ ((damagedWorld FlowCtx.reset).target 0).parityBad = true ∧ ((world FlowCtx.reset).target 1).state = .empty
      ∧ BoundTo (world loading) 0 0 ∧ ImageField.state ∈ ({ img with bad := [.state] } : ImageRecord).bad)
    ∧ (Asked (asking (world loading) .flowRelease [0]) .flowRelease (reqFrame .flowRelease [0]) []
      ∧ ((world loading).flow 0).state ≠ .free ∧ ((world loading).flow 0).binding = some bnd
      ∧ ((world loading).flow 15).state = .free ∧ 15 < fieldAt (params (reqFrame .flowRelease [16])) 0 1) := by
  refine ⟨⟨asked _ _ rfl (by decide), by decide, rfl, by decide +kernel, spells_params, ?_, unbound, by decide +kernel,
    by decide +kernel, by decide +kernel⟩, ⟨by decide, by decide, by decide, ?_, rfl⟩,
    ⟨by decide +kernel, by decide +kernel, by decide +kernel, binds (by decide) rfl, by decide⟩,
    asked _ _ rfl (by decide), by decide +kernel, by decide +kernel, by decide +kernel, by decide⟩
  · unfold Sound
    decide +kernel
  · intro q h
    have hq := h.cellQuota
    unfold BoundParam at hq
    have hm : (byteAt (params (reqFrame .flowBind (bindParams 0 0 0 0 7))) 3).getLsbD 6 = false := by decide
    have hv : fieldAt (params (reqFrame .flowBind (bindParams 0 0 0 0 7))) (4 + 6) 1 = 7 := by decide
    rw [hm, hv] at hq
    simp at hq

theorem witness_HoldAndResume :
    (Asked (asking (world loading) .flowHold [0]) .flowHold (reqFrame .flowHold [0]) []
      ∧ Asked (asking (world loading) .flowResume [0]) .flowResume (reqFrame .flowResume [0]) []
      ∧ fieldAt (params (reqFrame .flowHold [0])) 0 1 = (0 : FlowId).val
      ∧ 15 < fieldAt (params (reqFrame .flowHold [16])) 0 1)
    ∧ (((world loading).flow 0).state ≠ .free ∧ ((world loading).flow 0).state ≠ .done
      ∧ ((world loading).flow 0).state ≠ .failed)
    ∧ (((world loading).flow 1).state = .free ∧ ((world (bound .done)).flow 0).state = .done
      ∧ ((world (bound .failed)).flow 0).state = .failed) :=
  ⟨⟨asked _ _ rfl (by decide), asked _ _ rfl (by decide), by decide, by decide⟩, by decide +kernel, by decide +kernel⟩

/-! Invariants -/

/-- A state with a command to take. -/
def waiting : State := { live with pending := [.receptionError 0 .seg0] }

theorem waiting_steps : ∃ s', step waiting = .next s' := ⟨_, exec_receptionError _ 0 .seg0 (quiet rfl rfl rfl)⟩

theorem port_waiting (p : Port) : waiting.port p = PortUnit.reset := by cases p <;> rfl

theorem flow_waiting (f : FlowId) : waiting.flow f = FlowCtx.reset := flow_live f

theorem witness_QueuesKept :
    (QueuesOk waiting ∧ GatesAscending waiting ∧ waiting.offers = []) ∧ ∃ s', step waiting = .next s' := by
  refine ⟨⟨⟨fun p => ?_, by decide⟩, ⟨List.Pairwise.nil, nofun⟩, rfl⟩, waiting_steps⟩
  rw [port_waiting]
  exact ⟨by decide, List.Pairwise.nil, by decide, fun _ => by decide, by intro _ q hq; simp [PortUnit.reset] at hq,
    fun _ => rfl, by decide⟩

theorem witness_AlertKeysCheckListAndExtentsKept :
    (AlertKeysDistinct waiting ∧ CheckListOk waiting ∧ ExtentsOrdered waiting.extents) ∧ ∃ s', step waiting = .next s' :=
  ⟨⟨List.nodup_nil, rfl, List.Pairwise.nil, nofun⟩, waiting_steps⟩

theorem witness_IdsKept : IdsDistinct { world loading with pending := waiting.pending } := by
  have only : ∀ n, Sound { world loading with pending := waiting.pending } n → n = 0 := by
    intro n h
    have h1 : ((world loading).target n).state = .valid := h.1
    rw [target_world] at h1
    by_contra hc
    rw [if_neg hc] at h1
    cases h1
  have e : ({ world loading with pending := waiting.pending } : State).target 0 = tgt := tgt_world 0
  refine ⟨fun h => absurd h (by decide), ?_, ?_, ?_⟩
  · intro n h
    rw [only n h, e]
    decide
  · intro n h
    rw [only n h, e]
    decide
  · intro n m h1 h2 hne
    rw [only n h1, only m h2] at hne
    exact absurd rfl hne

theorem witness_FlowsKept : (FlowsOk waiting ∧ TargetsBoundOnce waiting) ∧ ∃ s', step waiting = .next s' := by
  refine ⟨⟨⟨fun f => ?_, fun _ f => by rw [flow_waiting]; rfl⟩, fun f _ _ h => absurd (by rw [flow_waiting]; rfl) h⟩,
    waiting_steps⟩
  rw [flow_waiting]
  exact ⟨by decide, fun _ => rfl, nofun, by decide, by decide, nofun, nofun, nofun, nofun, fun h => absurd rfl h,
    fun _ => rfl, by decide⟩

theorem witness_PoolKept : PoolOk waiting := by
  have hc : ∀ c : CellId, (waiting.cell c).inUse = false := by
    intro c
    show ((Vector.replicate 512 Cell.reset).get c).inUse = false
    simp [Vector.get, Cell.reset]
  have hf : ∀ f : FlowId, (waiting.flow f).heldCells = [] := fun f => by rw [flow_waiting]; rfl
  refine ⟨fun c => ?_, fun f => ?_, fun f g c h => ?_, fun f => ?_, fun f c x h => ?_, fun _ f => ?_⟩
  · rw [hc]
    simp [hf]
  · rw [hf]
    exact List.nodup_nil
  · rw [hf] at h
    cases h
  · rw [hf]
    exact Nat.zero_le _
  · cases h
  · rw [flow_waiting]
    rfl

end Sys2Proof.Tests
end

section
/-! The check value (R103): one equation per function of the register, the table of the rule, and O31. -/

namespace Sys2Proof.Proofs
open Sys2Proof.Machine

/-! ## The register of R103 -/

/-- R103 step 3: the combined bit was 1. -/
theorem crcBit_of_combined_one (reg : Word) (bit : Bool) (h : (reg.getLsbD 0 ^^ bit) = true) :
    crcBit reg bit = (reg >>> 1) ^^^ 0xEDB88320#32 :=
  if_pos h

/-- R103 step 3: the combined bit was 0. -/
theorem crcBit_of_combined_zero (reg : Word) (bit : Bool) (h : (reg.getLsbD 0 ^^ bit) = false) :
    crcBit reg bit = reg >>> 1 :=
  if_neg (Bool.eq_false_iff.mp h)

/-- R103 step 2: the fold over the bit numbers is eight steps of the register, bit 0 first. -/
theorem crcByte_eq_crcBit_bits (acc : Word) (b : Byte) :
    crcByte acc b =
      crcBit (crcBit (crcBit (crcBit (crcBit (crcBit (crcBit (crcBit acc (b.getLsbD 0)) (b.getLsbD 1)) (b.getLsbD 2))
        (b.getLsbD 3)) (b.getLsbD 4)) (b.getLsbD 5)) (b.getLsbD 6)) (b.getLsbD 7) := by
  simp only [crcByte, List.foldl_cons, List.foldl_nil]

@[simp] theorem crcFold_nil (acc : Word) : crcFold acc [] = acc :=
  List.foldl_nil

@[simp] theorem crcFold_cons (acc : Word) (b : Byte) (bytes : List Byte) :
    crcFold acc (b :: bytes) = crcFold (crcByte acc b) bytes :=
  List.foldl_cons ..

/-- R103 steps 1 and 4: the preset and the inversion. -/
theorem checkValue_eq_not_crcFold (bytes : List Byte) : checkValue bytes = ~~~ crcFold 0xFFFFFFFF bytes := by
  simp only [checkValue, crcFinal, accPreset, BitVec.ofNat_eq_ofNat]

/-! ## The closed values the rule states -/

/-- 0xEDB88320 is the generator polynomial 0x04C11DB7 with its bit order reversed. -/
theorem crcPolynomial_reverse : (0xEDB88320#32).reverse = 0x04C11DB7#32 := by decide +kernel

/-- The first row of R103's table: "123456789" in ASCII. -/
theorem checkValue_ascii_digits :
    checkValue [0x31, 0x32, 0x33, 0x34, 0x35, 0x36, 0x37, 0x38, 0x39] = 0xCBF43926 := by
  decide +kernel

/-- The second row of R103's table. -/
theorem checkValue_zero_byte : checkValue [0x00] = 0xD202EF8D := by decide

/-- The third row of R103's table: the preset register, inverted. -/
theorem checkValue_nil : checkValue [] = 0x00000000 := by
  rw [checkValue_eq_not_crcFold, crcFold_nil]
  decide

/-- Settles O31, by the equation of each function of the register and the rows of R103's table. -/
theorem checkValueIsCrc32 : Obligations.CheckValueIsCrc32 :=
  ⟨checkValue_eq_not_crcFold, crcFold_nil, crcFold_cons, crcByte_eq_crcBit_bits, crcBit_of_combined_one,
    crcBit_of_combined_zero, crcPolynomial_reverse, checkValue_ascii_digits, checkValue_zero_byte, checkValue_nil⟩

end Sys2Proof.Proofs
end

section
/-! The candidate state (R131): one equation per test of the rule, the rule's table at the default limits, and O37. -/

namespace Sys2Proof.Proofs
open Sys2Proof.Machine

/-! ## The tests of R131, in order -/

/-- R130: a disabled limit has no value below it. -/
@[simp] theorem belowLimit_eq_true_iff (limit v : Nat) : belowLimit limit v = true ↔ limit ≠ 0 ∧ v < limit := by
  simp only [belowLimit, Bool.and_eq_true, bne_iff_ne, decide_eq_true_iff]

section
variable {g : SupplySettings} {v : Nat} (k : SupplyState)

/-- R131 test 1. -/
theorem candidate_of_below_critical (crit : g.criticalLimit ≠ 0 ∧ v < g.criticalLimit) :
    g.candidate k v = .critical :=
  if_pos ((belowLimit_eq_true_iff ..).mpr crit)

/-- R131 test 2. -/
theorem candidate_of_below_low (notCrit : ¬ (g.criticalLimit ≠ 0 ∧ v < g.criticalLimit))
    (low : g.lowLimit ≠ 0 ∧ v < g.lowLimit) : g.candidate k v = .low := by
  rw [SupplySettings.candidate, if_neg (mt (belowLimit_eq_true_iff ..).mp notCrit),
    if_pos ((belowLimit_eq_true_iff ..).mpr low)]

/-- Past the first two tests of R131 the effective restore level decides. -/
theorem candidate_of_not_below (notCrit : ¬ (g.criticalLimit ≠ 0 ∧ v < g.criticalLimit))
    (notLow : ¬ (g.lowLimit ≠ 0 ∧ v < g.lowLimit)) :
    g.candidate k v = if g.restoreLevel ≤ v then .normal else if k = .critical then .low else k := by
  rw [SupplySettings.candidate, if_neg (mt (belowLimit_eq_true_iff ..).mp notCrit),
    if_neg (mt (belowLimit_eq_true_iff ..).mp notLow)]

/-- R131 test 3. -/
theorem candidate_of_restored (notCrit : ¬ (g.criticalLimit ≠ 0 ∧ v < g.criticalLimit))
    (notLow : ¬ (g.lowLimit ≠ 0 ∧ v < g.lowLimit)) (restored : g.restoreLevel ≤ v) : g.candidate k v = .normal := by
  rw [candidate_of_not_below k notCrit notLow, if_pos restored]

/-- R131 test 4: the hysteresis band. -/
theorem candidate_of_below_restore (notCrit : ¬ (g.criticalLimit ≠ 0 ∧ v < g.criticalLimit))
    (notLow : ¬ (g.lowLimit ≠ 0 ∧ v < g.lowLimit)) (band : v < g.restoreLevel) :
    g.candidate k v = if k = .critical then .low else k := by
  rw [candidate_of_not_below k notCrit notLow, if_neg band.not_ge]

end

/-! ## The table of R131 -/

/-- The third row of the table, which lies in the hysteresis band 11000 to 11499 of the default limits. -/
theorem candidate_reset_11200 (k : SupplyState) :
    Supply.reset.settings.candidate k 11200 = if k = .normal then .normal else .low := by
  rw [candidate_of_below_restore k (by decide) (by decide) (by decide)]
  cases k with
  | normal => rfl
  | low => rfl
  | critical => rfl

/-- Settles O37, by the equation of each test and, for a row of the table, the test that its value meets. -/
theorem candidateState : Obligations.CandidateState :=
  ⟨fun _ k _ => ⟨candidate_of_below_critical k, candidate_of_below_low k, candidate_of_restored k,
      candidate_of_below_restore k⟩,
    fun k => ⟨candidate_of_below_critical k (by decide), candidate_of_below_low k (by decide) (by decide),
      candidate_reset_11200 k, candidate_of_restored k (by decide) (by decide) (by decide)⟩⟩

end Sys2Proof.Proofs
end

section
/-! The room of a transmit queue (R156): each part of the rule as a condition, the two outcomes of an offer, and O8. -/

namespace Sys2Proof.Proofs
open Sys2Proof.Machine

/-! ## The parts of the room -/

/-- R151, R152: a port carries traffic in two of the four confinement states. -/
theorem carries_eq_true_iff (c : Confinement) : c.carries = true ↔ c = .active ∨ c = .passive := by
  cases c with
  | active => simp only [Confinement.carries, true_or]
  | passive => simp only [Confinement.carries, or_true]
  | off => simp only [Confinement.carries, Bool.false_eq_true, reduceCtorEq, or_self]
  | recovering => simp only [Confinement.carries, Bool.false_eq_true, reduceCtorEq, or_self]

section
variable (u : PortUnit) (p : Port)

theorem plainCount_eq : u.plainCount = u.queue.countP fun q => q.cls = .plain :=
  rfl

theorem forwardedCount_eq : u.forwardedCount = u.queue.countP fun q => q.cls = .plain ∨ q.cls = .dialogue := by
  simp only [PortUnit.forwardedCount, Bool.decide_or, beq_eq_decide]

/-- R156, the rows of DIALOGUE: the share of 28 binds on TRUNK only. -/
theorem withinShare_dialogue_iff : u.withinShare p .dialogue = true ↔ (p = .trunk → u.forwardedCount < 28) := by
  simp only [PortUnit.withinShare, Bool.or_eq_true, bne_iff_ne, decide_eq_true_iff, imp_iff_not_or, ne_eq]

/-- R156, the row of PLAIN: its own share of 24, and within that the share of DIALOGUE. -/
theorem withinShare_plain_iff :
    u.withinShare p .plain = true ↔ u.plainCount < 24 ∧ (p = .trunk → u.forwardedCount < 28) := by
  rw [← withinShare_dialogue_iff]
  simp only [PortUnit.withinShare, Bool.and_eq_true, decide_eq_true_iff]

/-- R156, the row of GENERATED. -/
theorem withinShare_generated_iff (k : GeneratedKind) : u.withinShare p (.generated k) = true ↔ p = .trunk :=
  beq_iff_eq

end

section
variable (s : State) (p : Port) (k : QueueClass)

/-! ## The room, and what an offer does with it -/

/-- R156: the three parts of the room. -/
theorem room_eq_true_iff :
    s.room p k = true ↔ ((s.port p).conf = .active ∨ (s.port p).conf = .passive)
      ∧ (s.port p).queue.length < 32 ∧ (s.port p).withinShare p k = true := by
  simp only [State.room, Bool.and_eq_true, decide_eq_true_iff, carries_eq_true_iff, and_assoc]

variable {s p} in
/-- In a port that carries traffic and has a free slot, the share of the class decides. -/
theorem room_eq_true_iff_withinShare (conf : (s.port p).conf = .active ∨ (s.port p).conf = .passive)
    (slot : (s.port p).queue.length < 32) : s.room p k = true ↔ (s.port p).withinShare p k = true := by
  rw [room_eq_true_iff, and_iff_right conf, and_iff_right slot]

variable {s p k} (frame : CanFrame)

/-- R156: a frame that finds room joins the queue. -/
theorem offer_of_room (room : s.room p k = true) : s.offer p k frame = Enqueued s p k frame :=
  if_pos room

/-- R157: a frame that finds no room is dropped. -/
theorem offer_of_no_room (noRoom : s.room p k = false) : s.offer p k frame = s :=
  if_neg (Bool.eq_false_iff.mp noRoom)

end

/-- Settles O8, by the three parts of the room, the share of each class, and the two outcomes of an offer. -/
theorem queueRoom : Obligations.QueueRoom := by
  intro s p plain forwarded
  have plain_eq : (s.port p).plainCount = plain := plainCount_eq _
  have forwarded_eq : (s.port p).forwardedCount = forwarded := forwardedCount_eq _
  refine ⟨?roomNeeds, ?shares, fun _ => offer_of_room, fun _ => offer_of_no_room⟩
  case roomNeeds =>
    intro k room
    obtain ⟨conf, slot, -⟩ := (room_eq_true_iff s p k).mp room
    exact ⟨conf, slot⟩
  case shares =>
    intro conf slot
    have room_iff (k : QueueClass) := room_eq_true_iff_withinShare k conf slot
    rw [← plain_eq, ← forwarded_eq]
    exact ⟨(room_iff .plain).trans (withinShare_plain_iff ..), (room_iff .dialogue).trans (withinShare_dialogue_iff ..),
      fun k => (room_iff (.generated k)).trans (withinShare_generated_iff ..)⟩

end Sys2Proof.Proofs
end

section
/-! FAULTS CLEAR (R172): the reserved bits of the mask, the two outcomes of carrying it out, and O44. -/

namespace Sys2Proof.Proofs
open Sys2Proof.Machine

/-! ## The mask and the flags byte -/

/-- A byte has one of bits 5 to 7 set exactly when its value is 32 or more: the test of the model is the one of R172. -/
theorem reserved_bit_iff_thirtyTwo_le (mask : Byte) :
    (mask.getLsbD 5 || mask.getLsbD 6 || mask.getLsbD 7) = true ↔ 32 ≤ mask.toNat := by
  simp only [Bool.or_eq_true]
  constructor
  · rintro ((bit | bit) | bit) <;>
      · have := Nat.ge_two_pow_of_testBit bit
        omega
  · intro large
    obtain ⟨i, low, bit⟩ := Nat.exists_ge_and_testBit_of_ge_two_pow (n := 5) large
    have high : i < 8 := BitVec.lt_of_getLsbD bit
    obtain rfl | rfl | rfl : i = 5 ∨ i = 6 ∨ i = 7 := by omega
    · exact Or.inl (Or.inl bit)
    · exact Or.inl (Or.inr bit)
    · exact Or.inr bit

/-- The coding of R18 as a sum of powers of two. -/
theorem faultFlags_byte_eq (f : FaultFlags) :
    f.byte = f.route.toNat + 2 * f.target.toNat + 4 * f.image.toNat + 8 * f.checklist.toNat + 16 * f.cell.toNat := by
  simp only [FaultFlags.byte, bits, List.foldr_cons, List.foldr_nil]
  omega

/-- A one-byte field. -/
theorem b1_eq_singleton (v : Nat) : b1 v = [BitVec.ofNat 8 v] := by
  simp only [b1, be, Nat.pow_zero, Nat.div_one]

/-- R170: with every flag clear the FAULT line is released. -/
theorem faultFlags_clear_line : FaultFlags.clear.line = false := rfl

section
variable {s : State} {p : List Byte}

/-! ## FAULTS CLEAR is carried out -/

/-- R172: a mask with a reserved bit is refused. -/
theorem carryFaultsClear_of_reserved (h : 32 ≤ (byteAt p 0).toNat) : s.carryFaultsClear p = s.refused .badValue :=
  if_pos h

/-- R172: any other mask clears its flags, and the answer is the five flags left. -/
theorem carryFaultsClear_of_legal (h : ¬ 32 ≤ (byteAt p 0).toNat) :
    s.carryFaultsClear p =
      { s with faults := s.faults.clearMask (byteAt p 0) }.done (b1 (s.faults.clearMask (byteAt p 0)).byte) :=
  if_neg h

variable {frame : CanFrame} {rest : List CanFrame} (t : Time)

/-- The asked request answers in the state and with the bytes its carrying out gives, as it offers no frame to TRUNK. -/
theorem exec_faultsClear_asked (h : Asked s .faultsClear frame rest) {u : State} {a : Answer}
    (carried : (Taken s t rest).carryFaultsClear (params frame) = (u, a)) (offers : u.offers = s.offers) :
    exec (.faultsClear t) s = .next (Answered u frame a.bytes) := by
  rw [exec_faultsClear s t h.running, takeRequest_quiet t h, carried]
  rw [carried]
  exact offers.trans h.offered

end

/-- Settles O44, by the reading of the mask as a number and the outcome of either kind of mask. -/
theorem faultsClearClears : Obligations.FaultsClearClears := by
  intro s t frame rest asked mask flags byte
  have reserved_iff := reserved_bit_iff_thirtyTwo_le mask
  refine ⟨?refused, ?cleared, ?line⟩
  case refused =>
    intro reserved
    exact exec_faultsClear_asked t asked (carryFaultsClear_of_reserved (reserved_iff.mp reserved)) rfl
  case cleared =>
    intro legal
    have small : ¬ 32 ≤ mask.toNat := fun large => Bool.eq_false_iff.mp legal (reserved_iff.mpr large)
    have byte_eq : flags.byte = byte := faultFlags_byte_eq flags
    rw [← byte_eq, ← b1_eq_singleton]
    exact exec_faultsClear_asked t asked (carryFaultsClear_of_legal small) rfl
  case line =>
    intro allClear
    rw [allClear]
    exact faultFlags_clear_line

end Sys2Proof.Proofs
end

section
/-! One law for every step: a relation between states that each thing the part can do keeps, every step keeps. The
invariants are instances of it. -/

namespace Sys2Proof.Proofs
open Sys2Proof.Machine

/-- A relation between a state and a later one that holds along everything a step is made of: the model's own bookkeeping, a
reset and its release, an outside happening, what the responder does, and the effect of each event from outside. -/
structure StepLaw (R : State → State → Prop) : Prop where
  refl : ∀ s, R s s
  trans : ∀ {s u v}, R s u → R u v → R s v
  pending : ∀ (s : State) l, R s { s with pending := l }
  outside : ∀ (s : State) l, R s { s with outside := l }
  freeCount : ∀ (s : State) k, R s { s with freeCount := k }
  advance : ∀ (s : State) t, R s (s.advance t)
  reset : ∀ (s : State) p o n k,
    R s { State.reset with pending := p, outside := o, now := n, freeCount := k }
  release : ∀ (s : State) straps, s.resetHeld = true → R s (s.release straps)
  happen : ∀ (s : State) o, R s (s.happen o)
  request : ∀ (s : State) r, s.resetHeld = false → R s (s.takeRequest r (State.carry r))
  untagged : ∀ s : State, R s s.requestWithoutTag
  unknown : ∀ s : State, R s s.unknownRequest
  reply : ∀ s : State, R s s.replyEnqueue
  alert : ∀ s : State, R s s.alertMove
  arrival : ∀ (s : State) p frame, R s (s.arrival p frame).trunkTakes
  receptionError : ∀ (s : State) p, R s (s.receptionError p)
  attemptStart : ∀ (s : State) p, R s (s.attemptStart p)
  transmissionSuccess : ∀ (s : State) p, R s (s.transmissionSuccess p)
  arbitrationLost : ∀ (s : State) p, R s (s.setPort p { s.port p with queue := unmark (s.port p).queue })
  transmissionError : ∀ (s : State) p, R s (s.transmissionError p).trunkTakes
  recoveryComplete : ∀ (s : State) p, R s (s.recoveryComplete p)
  pendingExpiry : ∀ (s : State) f, R s (s.pendingExpiry f)
  gapExpiry : ∀ (s : State) f, R s (s.gapExpiry f).trunkTakes
  windowExpiry : ∀ s : State, R s s.windowExpiry
  flowSliceComplete : ∀ s : State, R s s.flowSliceComplete.trunkTakes
  imageSliceComplete : ∀ s : State, R s s.imageSliceComplete
  sampleTime : ∀ s : State, R s s.sampleTime
  conversionComplete : ∀ (s : State) raw, R s (s.conversionComplete raw).trunkTakes

namespace StepLaw

variable {R : State → State → Prop} (law : StepLaw R) {s s' : State}
include law

/-! ## What is due at once -/

theorem takeHead (s : State) (out : s.resetHeld = false) : R s s.takeHead := by
  unfold State.takeHead
  split
  · exact law.refl s
  · split
    · split
      · exact law.request s _ out
      · exact law.unknown s
    · exact law.untagged s

theorem doAtOnce (s : State) (out : s.resetHeld = false) (a : AtOnce) : R s (s.doAtOnce a) := by
  cases a with
  | take => exact law.takeHead s out
  | reply => exact law.reply s
  | alert => exact law.alert s

theorem settle (s : State) (out : s.resetHeld = false) : R s s.settle := by
  refine (State.settle_keeps s (fun u => R s u ∧ u.resetHeld = false) (fun u a h => ?_) (fun u k h => ?_)
    ⟨law.refl s, out⟩).1
  · exact ⟨law.trans h.1 (law.doAtOnce u h.2 a), (congrArg Outer.resetHeld (u.doAtOnce_outer a)).trans h.2⟩
  · exact ⟨law.trans h.1 (law.freeCount u k), h.2⟩

/-! ## Events -/

/-- An event changes the time, and out of reset has its effect after that. -/
theorem event {t : Time} {f : State → State} (effect : ∀ u : State, u.resetHeld = false → R u (f u))
    (h : s.event t f = .next s') : R s s' := by
  unfold State.event at h
  split at h
  · cases h
    exact law.advance s t
  · next out =>
    cases h
    exact law.trans (law.advance s t) (effect _ (Bool.eq_false_of_not_eq_true out))

/-- An event from outside has its effect after what is due at once. -/
theorem settled {t : Time} {f : State → State} (effect : ∀ u, R u (f u)) (h : s.settledEvent t f = .next s') :
    R s s' := by
  unfold State.settledEvent at h
  split at h
  · cases h
    exact law.advance s t
  · next out =>
    cases h
    exact law.trans (law.settle s (Bool.eq_false_of_not_eq_true out)) (law.trans (law.advance _ t) (effect _))

theorem deviceReset {t : Time} (h : execDeviceReset t s = .next s') : R s s' := by
  unfold execDeviceReset at h
  cases h
  exact law.reset s _ _ _ _

theorem resetRelease {t : Time} {straps : BitVec 3} (h : execResetRelease t straps s = .next s') : R s s' := by
  unfold execResetRelease at h
  split at h
  · cases h
    exact law.trans (law.advance s t) (law.release _ straps ‹_›)
  · cases h
    exact law.advance s t

theorem asked {t : Time} (r : Request) (h : s.event t (fun u => u.takeRequest r (State.carry r)) = .next s') : R s s' :=
  law.event (fun u out => law.request u r out) h

/-! ## Commands and steps -/

/-- Every command keeps the relation. -/
theorem exec {c : Instr} (h : exec c s = .next s') : R s s' := by
  cases c with
  | deviceReset t => exact law.deviceReset h
  | resetRelease t straps => exact law.resetRelease h
  | frameArrival t p frame => exact law.settled (fun u => law.arrival u p frame) h
  | receptionError t p => exact law.settled (fun u => law.receptionError u p) h
  | transmissionAttemptStart t p => exact law.settled (fun u => law.attemptStart u p) h
  | transmissionSuccess t p => exact law.settled (fun u => law.transmissionSuccess u p) h
  | arbitrationLost t p => exact law.settled (fun u => law.arbitrationLost u p) h
  | transmissionError t p => exact law.settled (fun u => law.transmissionError u p) h
  | recoveryComplete t p => exact law.settled (fun u => law.recoveryComplete u p) h
  | replyEnqueue t => exact law.event (fun u _ => law.reply u) h
  | alertMove t => exact law.event (fun u _ => law.alert u) h
  | requestWithoutTag t => exact law.event (fun u _ => law.untagged u) h
  | unknown t => exact law.event (fun u _ => law.unknown u) h
  | status t => exact law.asked .status h
  | faultsClear t => exact law.asked .faultsClear h
  | portSet t => exact law.asked .portSet h
  | portRestart t => exact law.asked .portRestart h
  | routeWrite t => exact law.asked .routeWrite h
  | routeRead t => exact law.asked .routeRead h
  | routingEnable t => exact law.asked .routingEnable h
  | targetWrite t => exact law.asked .targetWrite h
  | targetRead t => exact law.asked .targetRead h
  | imageBegin t => exact law.asked .imageBegin h
  | imageRegion t => exact law.asked .imageRegion h
  | imageChecks t => exact law.asked .imageChecks h
  | imageEnd t => exact law.asked .imageEnd h
  | imageDiscard t => exact law.asked .imageDiscard h
  | imageQuery t => exact law.asked .imageQuery h
  | windowOpen t => exact law.asked .windowOpen h
  | windowRenew t => exact law.asked .windowRenew h
  | windowClose t => exact law.asked .windowClose h
  | flowBind t => exact law.asked .flowBind h
  | flowRelease t => exact law.asked .flowRelease h
  | flowHold t => exact law.asked .flowHold h
  | flowResume t => exact law.asked .flowResume h
  | flowQuery t => exact law.asked .flowQuery h
  | supplySet t => exact law.asked .supplySet h
  | supplyQuery t => exact law.asked .supplyQuery h
  | pendingDeadlineExpiry t f => exact law.settled (fun u => law.pendingExpiry u f) h
  | gapDeadlineExpiry t f => exact law.settled (fun u => law.gapExpiry u f) h
  | windowExpiry t => exact law.settled law.windowExpiry h
  | flowSliceComplete t => exact law.settled law.flowSliceComplete h
  | imageSliceComplete t => exact law.settled law.imageSliceComplete h
  | sampleTime t => exact law.settled law.sampleTime h
  | conversionComplete t raw => exact law.settled (fun u => law.conversionComplete u raw) h

theorem act {a : Action} (out : s.resetHeld = false) (h : s.act a = .next s') : R s s' := by
  cases a with
  | command i => exact law.exec h
  | happening o =>
    cases h
    exact law.trans (law.settle s out) (law.trans (law.outside _ _) (law.happen _ o))

theorem idle (h : s.idle = .next s') : R s s' := by
  unfold State.idle at h
  split at h
  · cases h
    exact law.refl s
  · next held =>
    have out : s.resetHeld = false := Bool.eq_false_of_not_eq_true held
    split at h
    · cases h
      exact law.refl s
    · exact law.act out h
    · unfold State.chooseAction at h
      split at h
      · exact law.trans (law.freeCount s _) (law.act (s := { s with freeCount := s.freeCount + 1 }) out h)
      · cases h
        exact law.refl s

/-- Every step keeps the relation. -/
theorem step (h : step s = .next s') : R s s' := by
  unfold Machine.step at h
  split at h
  · exact law.trans (law.pending s _) (law.exec h)
  · exact law.idle h

end StepLaw

end Sys2Proof.Proofs
end

section
/-! The extent list (R27): what the first-fit search finds and what joining an extent keeps. -/

namespace Sys2Proof.Proofs
open Sys2Proof.Machine

/-! ## The first-fit search -/

/-- The extents of a list lie one after the other from `start` on, none empty, all inside the memory. -/
structure ExtentsFrom (start : Nat) (l : List ExtentEntry) : Prop where
  ordered : ExtentsOrdered l
  from_start : ∀ e ∈ l, start ≤ e.first

theorem ExtentsFrom.zero {l : List ExtentEntry} (h : ExtentsOrdered l) : ExtentsFrom 0 l :=
  ⟨h, fun _ _ => Nat.zero_le _⟩

/-- Past the first extent the others lie from its end on. -/
theorem ExtentsFrom.tail {start : Nat} {e : ExtentEntry} {l : List ExtentEntry} (h : ExtentsFrom start (e :: l)) :
    ExtentsFrom (e.first + e.count) l := by
  obtain ⟨⟨apart, inside⟩, -⟩ := h
  exact ⟨⟨apart.of_cons, fun x hx => inside x (List.mem_cons_of_mem _ hx)⟩, (List.pairwise_cons.mp apart).1⟩

theorem ExtentsFrom.head {start : Nat} {e : ExtentEntry} {l : List ExtentEntry} (h : ExtentsFrom start (e :: l)) :
    start ≤ e.first ∧ 0 < e.count ∧ e.first + e.count ≤ 4096 := by
  have inside := h.ordered.2 e List.mem_cons_self
  exact ⟨h.from_start e List.mem_cons_self, inside.1, inside.2⟩

theorem extentFits_cons {e : ExtentEntry} {l : List ExtentEntry} {count k : Nat} :
    ExtentFits (e :: l) count k ↔ (k + count ≤ e.first ∨ e.first + e.count ≤ k) ∧ ExtentFits l count k := by
  simp only [ExtentFits, List.forall_mem_cons]
  tauto

/-- R27: the search finds the lowest index from its start on at which the count fits. -/
theorem firstFit_some {count : Nat} {l : List ExtentEntry} {start k : Nat} (h : ExtentsFrom start l)
    (found : firstFit count start l = some k) :
    start ≤ k ∧ ExtentFits l count k ∧ ∀ j, start ≤ j → j < k → ¬ ExtentFits l count j := by
  induction l generalizing start with
  | nil =>
    unfold firstFit at found
    split at found
    next room =>
      obtain rfl := Option.some.inj found
      exact ⟨Nat.le_refl _, ⟨room, fun _ hx => absurd hx List.not_mem_nil⟩, fun j low high => absurd low (by omega)⟩
    next => cases found
  | cons e rest ih =>
    obtain ⟨from_start, -, inside⟩ := h.head
    unfold firstFit at found
    split at found
    next gap =>
      obtain rfl := Option.some.inj found
      refine ⟨Nat.le_refl _, extentFits_cons.mpr ⟨.inl gap, by omega, fun x hx => .inl ?_⟩, fun j low high => by omega⟩
      have := h.tail.from_start x hx
      omega
    next noGap =>
      obtain ⟨past, fits, lowest⟩ := ih h.tail found
      refine ⟨by omega, extentFits_cons.mpr ⟨.inr past, fits⟩, fun j low high fitsHere => ?_⟩
      obtain ⟨before | after, fitsRest⟩ := extentFits_cons.mp fitsHere
      · omega
      · exact lowest j after high fitsRest

/-- R27: the search finds nothing only when the count fits nowhere from its start on. -/
theorem firstFit_none {count : Nat} {l : List ExtentEntry} {start : Nat} (h : ExtentsFrom start l)
    (found : firstFit count start l = none) (j : Nat) (low : start ≤ j) : ¬ ExtentFits l count j := by
  induction l generalizing start with
  | nil =>
    unfold firstFit at found
    split at found
    next => cases found
    next full =>
      rintro ⟨room, -⟩
      have size : checkListSize = 4096 := rfl
      omega
  | cons e rest ih =>
    unfold firstFit at found
    split at found
    · cases found
    · intro fitsHere
      obtain ⟨before | after, fitsRest⟩ := extentFits_cons.mp fitsHere
      · omega
      · exact ih h.tail found after fitsRest

/-! ## An extent joins the list -/

/-- R27: a new extent goes after those of no higher first index and before the others. -/
theorem insertExtent_between (x : ExtentEntry) {before after : List ExtentEntry} (hb : ∀ e ∈ before, e.first ≤ x.first)
    (ha : ∀ e ∈ after, x.first < e.first) : insertExtent x (before ++ after) = before ++ x :: after := by
  induction before with
  | nil =>
    cases after with
    | nil => rfl
    | cons e rest => exact if_pos (ha e List.mem_cons_self)
  | cons e rest ih =>
    have low : ¬ x.first < e.first := Nat.not_lt.mpr (hb e List.mem_cons_self)
    rw [List.cons_append, insertExtent, if_neg low, ih fun y hy => hb y (List.mem_cons_of_mem _ hy), List.cons_append]

theorem mem_insertExtent {x y : ExtentEntry} {l : List ExtentEntry} : y ∈ insertExtent x l ↔ y = x ∨ y ∈ l := by
  induction l with
  | nil => simp only [insertExtent, List.mem_singleton, List.not_mem_nil, or_false]
  | cons e rest ih =>
    unfold insertExtent
    split
    · exact List.mem_cons
    · rw [List.mem_cons, ih, List.mem_cons]
      tauto

/-- An extent that meets no other one keeps the list in order (R27). -/
theorem insertExtent_ordered {x : ExtentEntry} {l : List ExtentEntry} (h : ExtentsOrdered l) (pos : 0 < x.count)
    (fits : ExtentFits l x.count x.first) : ExtentsOrdered (insertExtent x l) := by
  refine ⟨?apart, fun e he => ?inside⟩
  case inside =>
    obtain rfl | old := mem_insertExtent.mp he
    · exact ⟨pos, fits.1⟩
    · exact h.2 e old
  case apart =>
    replace h := ExtentsFrom.zero h
    generalize 0 = start at h
    induction l generalizing start with
    | nil => exact List.pairwise_singleton _ _
    | cons e rest ih =>
      obtain ⟨atHead, atRest⟩ := extentFits_cons.mp fits
      have apart := List.pairwise_cons.mp h.ordered.1
      obtain ⟨-, posHead, -⟩ := h.head
      unfold insertExtent
      split
      next low =>
        refine List.pairwise_cons.mpr ⟨fun y hy => ?_, h.ordered.1⟩
        obtain rfl | hy := List.mem_cons.mp hy
        · omega
        · have := apart.1 y hy
          omega
      next high =>
        refine List.pairwise_cons.mpr ⟨fun y hy => ?_, ih atRest _ h.tail⟩
        obtain rfl | old := mem_insertExtent.mp hy
        · omega
        · exact apart.1 y old

end Sys2Proof.Proofs
end

section
/-! The invariants of the queues, the lists and the identifiers (R20, R27, R127, R136, R155, R156, R159, R166): every operation
of the part keeps each of them. -/

namespace Sys2Proof.Proofs
open Sys2Proof.Machine

/-- The later state has each of these invariants when the earlier one has it. -/
structure Keeps (s s' : State) : Prop where
  queues : QueuesOk s → QueuesOk s'
  gates : GatesAscending s → GatesAscending s'
  alerts : AlertKeysDistinct s → AlertKeysDistinct s'
  checks : CheckListOk s → CheckListOk s'
  extents : ExtentsOrdered s.extents → ExtentsOrdered s'.extents
  ids : IdsDistinct s → IdsDistinct s'

/-- What these invariants look at. -/
structure Watched where
  ports : Ports
  requests : List CanFrame
  waiting : List FlowId
  converter : Converter
  alerts : List Alert
  checkList : CheckMem
  extents : List ExtentEntry
  resetHeld : Bool
  strap : BitVec 3
  targets : Vector TargetEntry 32

/-- That part of a state. -/
def watched (s : State) : Watched :=
  ⟨s.ports, s.mgmt.queue, s.supply.waiting, s.supply.converter, s.alerts.entries, s.checkList, s.extents, s.resetHeld,
    s.strap, s.targets⟩

namespace Keeps

theorem refl (s : State) : Keeps s s := ⟨id, id, id, id, id, id⟩

theorem trans {s u v : State} (a : Keeps s u) (b : Keeps u v) : Keeps s v :=
  ⟨b.queues ∘ a.queues, b.gates ∘ a.gates, b.alerts ∘ a.alerts, b.checks ∘ a.checks, b.extents ∘ a.extents,
    b.ids ∘ a.ids⟩

/-- An operation that leaves what the invariants look at keeps them. -/
theorem of_watched {s s' : State} (h : watched s' = watched s) : Keeps s s' := by
  injection h with ports requests waiting converter alerts checkList extents resetHeld strap targets
  have port (p : Port) : s'.port p = s.port p := by rw [State.port_eq, State.port_eq, ports]
  have target (n : TargetId) : s'.target n = s.target n := by rw [State.target_eq, State.target_eq, targets]
  refine ⟨fun k => ⟨fun p => ?_, ?_⟩, fun k => ⟨?_, ?_⟩, fun k => ?_, fun k => ?_, fun k => ?_, fun k => ⟨?_, ?_, ?_, ?_⟩⟩
  · rw [port]
    exact k.1 p
  · rw [requests]
    exact k.2
  · rw [waiting]
    exact k.waiting
  · rw [converter]
    exact k.served
  · unfold AlertKeysDistinct
    rw [alerts]
    exact k
  · unfold CheckListOk
    rw [checkList]
    exact k
  · rw [extents]
    exact k
  · simp only [resetHeld, target]
    exact k.held
  · simp only [Sound, strap, target]
    exact k.management
  · simp only [Sound, target]
    exact k.own
  · simp only [Sound, target]
    exact k.others

/-! ## Operations that touch one of the things looked at -/

variable (s : State)

/-- A port unit that stays within its rules (R155, R156). -/
theorem setPort {p : Port} {u : PortUnit} (h : PortOk p (s.port p) → PortOk p u) : Keeps s (s.setPort p u) where
  queues k := by
    refine ⟨fun q => ?_, k.2⟩
    rw [State.port_setPort]
    split
    · next same =>
      subst same
      exact h (k.1 q)
    · exact k.1 q
  gates k := ⟨k.waiting, k.served⟩
  alerts := id
  checks := id
  extents := id
  ids k := ⟨k.held, k.management, k.own, k.others⟩

/-- The request queue stays within its size (R159). -/
theorem ofRequests {m : Responder} (h : s.mgmt.queue.length ≤ 4 → m.queue.length ≤ 4) : Keeps s { s with mgmt := m } where
  queues k := ⟨k.1, h k.2⟩
  gates k := ⟨k.waiting, k.served⟩
  alerts := id
  checks := id
  extents := id
  ids k := ⟨k.held, k.management, k.own, k.others⟩

/-- The sets of gate requests stay ascending (R127, R136). -/
theorem mapSupply {g : Supply → Supply}
    (h : GatesAscending s → GatesAscending (s.mapSupply g)) : Keeps s (s.mapSupply g) where
  queues := id
  gates := h
  alerts := id
  checks := id
  extents := id
  ids k := ⟨k.held, k.management, k.own, k.others⟩

/-- The keys of the alert queue stay distinct (R166). -/
theorem ofAlerts {a : AlertQueue} (h : (s.alerts.entries.map Alert.key).Nodup → (a.entries.map Alert.key).Nodup) :
    Keeps s { s with alerts := a } where
  queues := id
  gates k := ⟨k.waiting, k.served⟩
  alerts := h
  checks := id
  extents := id
  ids k := ⟨k.held, k.management, k.own, k.others⟩

theorem ofCheckList {m : CheckMem} (h : s.checkList.wf = true → m.wf = true) : Keeps s { s with checkList := m } where
  queues := id
  gates k := ⟨k.waiting, k.served⟩
  alerts := id
  checks := h
  extents := id
  ids k := ⟨k.held, k.management, k.own, k.others⟩

theorem ofExtents {l : List ExtentEntry} (h : ExtentsOrdered s.extents → ExtentsOrdered l) :
    Keeps s { s with extents := l } where
  queues := id
  gates k := ⟨k.waiting, k.served⟩
  alerts := id
  checks := id
  extents := h
  ids k := ⟨k.held, k.management, k.own, k.others⟩

theorem setTarget {n : TargetId} {e : TargetEntry} (h : IdsDistinct s → IdsDistinct (s.setTarget n e)) :
    Keeps s (s.setTarget n e) where
  queues := id
  gates k := ⟨k.waiting, k.served⟩
  alerts := id
  checks := id
  extents := id
  ids := h

/-! ## Plain updates -/

theorem setFlow (f : FlowId) (c : FlowCtx) : Keeps s (s.setFlow f c) := of_watched rfl
theorem mapFlow (f : FlowId) (g : FlowCtx → FlowCtx) : Keeps s (s.mapFlow f g) := of_watched rfl
theorem setRecord (f : FlowId) (r : Option ParcelRecord) : Keeps s (s.setRecord f r) := of_watched rfl
theorem setVerdict (f : FlowId) (v : Verdict) : Keeps s (s.setVerdict f v) := of_watched rfl
theorem beginPending (f : FlowId) (k : PendingKind) : Keeps s (s.beginPending f k) := of_watched rfl
theorem clearPending (f : FlowId) : Keeps s (s.clearPending f) := of_watched rfl
theorem setRegion (f : FlowId) (r : Nat) (k : RegionState) : Keeps s (s.setRegion f r k) := of_watched rfl
theorem setFlowState (f : FlowId) (k : FlowState) : Keeps s (s.setFlowState f k) := of_watched rfl
theorem closeToIdle (f : FlowId) : Keeps s (s.closeToIdle f) := of_watched rfl
theorem opened (f : FlowId) (o : OpenRegion) : Keeps s (s.opened f o) := of_watched rfl
theorem setImage (i : ImageId) (r : ImageRecord) : Keeps s (s.setImage i r) := of_watched rfl
theorem mapReferences (i : ImageId) (g : Nat → Nat) : Keeps s (s.mapReferences i g) := of_watched rfl
theorem setRoute (n : RouteId) (e : RouteEntry) : Keeps s (s.setRoute n e) := of_watched rfl
theorem setCell (c : CellId) (x : Cell) : Keeps s (s.setCell c x) := of_watched rfl
theorem fillCell (c : CellId) (x : CellContent) : Keeps s (s.fillCell c x) := of_watched rfl
theorem freeCell (c : CellId) : Keeps s (s.freeCell c) := of_watched rfl
theorem advance (t : Time) : Keeps s (s.advance t) := of_watched rfl
theorem offerTrunk (k : QueueClass) (f : CanFrame) : Keeps s (s.offerTrunk k f) := of_watched rfl
theorem refuse (n : TargetId) (c : Byte) (r : Reason) (d : Byte) : Keeps s (s.refuse n c r d) := of_watched rfl

theorem offersComeFirst : Keeps s s.offersComeFirst := by
  obtain ⟨l, h⟩ := s.offersComeFirst_eq
  rw [h]
  exact of_watched rfl

/-! ## Alerts and fault flags -/

theorem queueAlert (a : Alert) : Keeps s (s.queueAlert a) := ofAlerts s fun h => putAlert_nodup a h

theorem removeAlert (k : AlertKey) : Keeps s (s.removeAlert k) :=
  ofAlerts s fun h => h.sublist (List.filter_sublist.map _)

theorem clearInFlight (l : List QueuedFrame) : Keeps s (s.clearInFlight l) := by
  unfold State.clearInFlight
  split
  · exact ofAlerts s id
  · exact refl s

theorem raiseFault (k : FaultFlag) : Keeps s (s.raiseFault k) := by
  unfold State.raiseFault
  split
  · exact refl s
  · have flag : Keeps s { s with faults := s.faults.set k } := of_watched rfl
    exact flag.trans (queueAlert _ _)

theorem raiseIf (b : Bool) (k : FaultFlag) : Keeps s (s.raiseIf b k) := by
  unfold State.raiseIf
  split
  · exact raiseFault s k
  · exact refl s

theorem flowAlert (f : FlowId) (h : HoldCauses) : Keeps s (s.flowAlert f h) := by
  unfold State.flowAlert
  split
  · exact queueAlert s _
  · exact refl s

theorem progressAlert (f : FlowId) : Keeps s (s.progressAlert f) := by
  unfold State.progressAlert
  dsimp only
  split
  · exact queueAlert s _
  · exact refl s

/-! ## Cells, slices and gate requests -/

theorem freeFlowCells (f : FlowId) : Keeps s (s.freeFlowCells f) := by
  rw [State.freeFlowCells_eq]
  exact of_watched rfl

theorem abandonFlowSlice (f : FlowId) : Keeps s (s.abandonFlowSlice f) := by
  rw [State.abandonFlowSlice_eq]
  exact of_watched rfl

theorem abandonImageSlice (i : ImageId) : Keeps s (s.abandonImageSlice i) := by
  unfold State.abandonImageSlice
  split
  · split
    · exact of_watched rfl
    · exact refl s
  · exact refl s

theorem beginSlice (r : Requester) : Keeps s (s.beginSlice r) := by
  cases r with
  | flow f =>
    show Keeps s (s.beginFlowSlice f)
    unfold State.beginFlowSlice
    split <;> exact of_watched rfl
  | image i => exact of_watched rfl

theorem nextSlice : Keeps s s.nextSlice := by
  unfold State.nextSlice
  split
  · exact of_watched rfl
  · exact beginSlice s _

theorem wakeEngine (r : Requester) : Keeps s (s.wakeEngine r) := by
  unfold State.wakeEngine
  split
  · exact beginSlice s r
  · exact refl s

theorem withdrawGate (f : FlowId) : Keeps s (s.withdrawGate f) := by
  refine mapSupply s fun k => ⟨dropFlow_sorted f k.waiting, fun done flows h => ?_⟩
  cases hc : s.supply.converter with
  | idle =>
    simp only [State.mapSupply, hc, Converter.withdraw, reduceCtorEq] at h
  | converting c served =>
    simp only [State.mapSupply, hc, Converter.withdraw, Converter.converting.injEq] at h
    obtain ⟨-, rfl⟩ := h
    exact dropFlow_sorted f (k.served c served hc)

theorem startConversion : Keeps s s.startConversion := by
  refine mapSupply s fun k => ⟨List.Pairwise.nil, fun done flows h => ?_⟩
  obtain ⟨-, rfl⟩ := Converter.converting.inj h
  exact k.waiting

theorem gateRequest (f : FlowId) : Keeps s (s.gateRequest f) := by
  have joined : Keeps s (s.mapSupply fun m => { m with waiting := insertFlow f m.waiting }) :=
    mapSupply s fun k => ⟨insertFlow_sorted f k.waiting, k.served⟩
  unfold State.gateRequest
  dsimp only
  split
  · exact joined.trans (startConversion _)
  · exact joined

theorem dropParcelWork (f : FlowId) : Keeps s (s.dropParcelWork f) :=
  (freeFlowCells s f).trans (abandonFlowSlice _ f)

/-! ## Entry to FAILED and the ends of a parcel -/

theorem failFlow (f : FlowId) (k : Condition) : Keeps s (s.failFlow f k) := by
  unfold State.failFlow
  dsimp only
  split
  · exact (dropParcelWork s f).trans ((withdrawGate _ f).trans ((mapFlow _ f _).trans (flowAlert _ f _)))
  · exact refl s

theorem countFailure (f : FlowId) : Keeps s (s.countFailure f) := by
  unfold State.countFailure
  dsimp only
  split
  · exact (mapFlow s f _).trans ((offersComeFirst _).trans (failFlow _ f _))
  · exact mapFlow s f _

theorem endBroken (f : FlowId) (n : TargetId) (b : Bool) : Keeps s (s.endBroken f n b) :=
  (dropParcelWork s f).trans
    ((refuse _ n _ _ _).trans ((setVerdict _ f _).trans ((setRecord _ f _).trans (countFailure _ f))))

theorem endSilently (f : FlowId) (r : Option ParcelRecord) : Keeps s (s.endSilently f r) :=
  (dropParcelWork s f).trans ((setVerdict _ f _).trans (setRecord _ f _))

theorem dropGated (f : FlowId) : Keeps s (s.dropGated f) :=
  (freeFlowCells s f).trans ((withdrawGate _ f).trans (setRecord _ f _))

theorem tableFault (f : FlowId) (n : TargetId) (k : FaultFlag) (code : UpdateCode) :
    Keeps s (s.tableFault f n k code) := by
  unfold State.tableFault
  dsimp only
  refine (raiseFault s k).trans (Keeps.trans ?_ (failFlow _ f _))
  split
  · exact (refuse _ n _ _ _).trans (setVerdict _ f _)
  · exact refuse _ n _ _ _

/-! ## Transmit queues -/

/-- A frame that finds room joins its queue within the rules of the port (R155, R156). -/
theorem enqueue {p : Port} {k : QueueClass} (room : s.room p k = true) (frame : CanFrame) :
    Keeps s (s.enqueue p k frame) := by
  obtain ⟨-, slot, share⟩ := (room_eq_true_iff s p k).mp room
  have carries : (s.port p).conf.carries = true := by
    simp only [State.room, Bool.and_eq_true] at room
    exact room.1.1
  refine setPort s fun ok => ⟨?size, insertByKey_ordered _ ok.ordered, ?plain, ?forwarded, ?generated, ?off, ok.received⟩
  case size =>
    rw [insertByKey_length]
    omega
  case plain =>
    have count := insertByKey_countP ⟨frame, k, false⟩ (s.port p).queue (fun q => q.cls == .plain)
    unfold PortUnit.plainCount
    rw [count]
    cases k with
    | plain =>
      have bound := ((withinShare_plain_iff _ p).mp share).1
      exact bound
    | dialogue => exact ok.plain
    | generated g => exact ok.plain
  case forwarded =>
    intro trunk
    have count := insertByKey_countP ⟨frame, k, false⟩ (s.port p).queue (fun q => q.cls == .plain || q.cls == .dialogue)
    unfold PortUnit.forwardedCount
    rw [count]
    cases k with
    | plain =>
      have bound := ((withinShare_plain_iff _ p).mp share).2 trunk
      exact bound
    | dialogue =>
      have bound := (withinShare_dialogue_iff _ p).mp share trunk
      exact bound
    | generated g => exact ok.forwarded trunk
  case generated =>
    intro segment q hq g
    obtain rfl | old := (mem_insertByKey _ _).mp hq
    · rintro rfl
      exact segment ((withinShare_generated_iff _ p g).mp share)
    · exact ok.generated segment q old g
  case off =>
    intro off
    cases carries.symm.trans off

theorem offer (p : Port) (k : QueueClass) (frame : CanFrame) : Keeps s (s.offer p k frame) := by
  unfold State.offer
  split
  · next room => exact enqueue s room frame
  · exact refl s

theorem toSegment {n : TargetId} (room : s.segRoom n = true) (frame : CanFrame) : Keeps s (s.toSegment n frame) :=
  enqueue s room frame

end Keeps

end Sys2Proof.Proofs
end

section
/-! What the flow controller, the inspector, the trackers and the classifier do keeps the invariants of the queues, the lists
and the identifiers (C3, C4, C8). -/

namespace Sys2Proof.Proofs
open Sys2Proof.Machine

namespace Keeps

variable (s : State)

/-! ## The flow controller -/

theorem countProgress (f : FlowId) : Keeps s (s.countProgress f) := by
  unfold State.countProgress
  dsimp only
  split
  · exact refl s
  · split
    · exact (mapFlow s f _).trans ((progressAlert _ f).trans (mapFlow _ f _))
    · exact mapFlow s f _

theorem acceptBlock (f : FlowId) (q : Byte) (n : Nat) : Keeps s (s.acceptBlock f q n) :=
  (mapFlow s f _).trans (countProgress _ f)

theorem finish (f : FlowId) : Keeps s (s.finish f) :=
  (mapFlow s f _).trans (flowAlert _ f _)

theorem onPositive (f : FlowId) (k : PendingKind) : Keeps s (s.onPositive f k) := by
  cases k with
  | erase r => exact (setRegion s f r _).trans (setFlowState _ f _)
  | open_ o => exact opened s f o
  | block q n again =>
    unfold State.onPositive
    dsimp only
    split
    · exact refl s
    · exact acceptBlock s f q n
  | close r => exact (setRegion s f r _).trans (closeToIdle _ f)
  | abandon r => exact (setRegion s f r _).trans (setFlowState _ f _)
  | activate => exact finish s f

theorem onRefusal (f : FlowId) (k : PendingKind) : Keeps s (s.onRefusal f k) := by
  cases k with
  | erase r => exact (setRegion s f r _).trans (setFlowState _ f _)
  | open_ o => exact setFlowState s f _
  | block q n again => exact countFailure s f
  | close r => exact (setRegion s f r _).trans (closeToIdle _ f)
  | abandon r => exact (setRegion s f r _).trans (setFlowState _ f _)
  | activate => exact setFlowState s f _

theorem onExpiry (f : FlowId) (k : PendingKind) : Keeps s (s.onExpiry f k) := by
  cases k with
  | erase r => exact (setRegion s f r _).trans (setFlowState _ f _)
  | open_ o => exact setFlowState s f _
  | block q n again => exact countFailure s f
  | close r => exact (setRegion s f r _).trans (closeToIdle _ f)
  | abandon r => exact (setRegion s f r _).trans (setFlowState _ f _)
  | activate => exact failFlow s f _

theorem matchResponse (f : FlowId) (p : PendingReq) (r : Response) : Keeps s (s.matchResponse f p r) := by
  cases r with
  | positive c e => exact (clearPending s f).trans (onPositive _ f _)
  | refusal c reason => exact (mapFlow s f _).trans ((clearPending _ f).trans (onRefusal _ f _))
  | wait c => exact of_watched rfl

theorem lateResponse (f : FlowId) (r : Response) : Keeps s (s.lateResponse f r) := by
  unfold State.lateResponse
  split
  · exact mapFlow s f _
  · exact refl s

theorem takeResponse (f : FlowId) (r : Response) : Keeps s (s.takeResponse f r) := by
  unfold State.takeResponse
  split
  · split
    · exact matchResponse s f _ r
    · exact lateResponse s f r
  · exact lateResponse s f r

/-- A target's tracker carries no identifier (R19). -/
theorem setTracker (n : TargetId) (k : Tracker) : Keeps s (s.setTracker n k) := by
  have ids (m : TargetId) : ((s.setTracker n k).target m).state = (s.target m).state
      ∧ ((s.setTracker n k).target m).parityBad = (s.target m).parityBad
      ∧ ((s.setTracker n k).target m).request = (s.target m).request
      ∧ ((s.setTracker n k).target m).response = (s.target m).response := by
    rw [State.target_setTracker]
    split
    · next same =>
      subst same
      exact ⟨rfl, rfl, rfl, rfl⟩
    · exact ⟨rfl, rfl, rfl, rfl⟩
  refine setTarget s fun h => ?_
  change IdsDistinct (s.setTracker n k)
  refine ⟨?_, ?_, ?_, ?_⟩
  · simp only [ids]
    exact h.held
  · simp only [Sound, ids]
    exact h.management
  · simp only [Sound, ids]
    exact h.own
  · simp only [Sound, ids]
    exact h.others

theorem refusalEndsRecord (f : FlowId) : Keeps s (s.refusalEndsRecord f) := by
  unfold State.refusalEndsRecord
  split
  · split
    · exact refl s
    · exact endSilently s f _
  · exact setRecord s f _
  · exact refl s

theorem targetRefusal (n : TargetId) : Keeps s (s.targetRefusal n) := by
  unfold State.targetRefusal
  dsimp only
  split
  · exact (setTracker s n _).trans (refusalEndsRecord _ _)
  · exact setTracker s n _

theorem dialogueResponse (n : TargetId) (frame : CanFrame) : Keeps s (s.dialogueResponse n frame) := by
  unfold State.dialogueResponse
  dsimp only
  refine trans (u := if isWholeRefusal frame then s.targetRefusal n else s) ?_ (trans ?_ (offerTrunk _ _ frame))
  · split
    · exact targetRefusal s n
    · exact refl s
  · generalize (if isWholeRefusal frame then s.targetRefusal n else s) = u
    split
    · exact takeResponse u _ _
    · exact refl u

theorem pendingExpiry (f : FlowId) : Keeps s (s.pendingExpiry f) := by
  unfold State.pendingExpiry
  split
  · split
    · exact (clearPending s f).trans (onExpiry _ f _)
    · exact refl s
  · exact refl s

/-! ## The parcel inspector -/

variable (f : FlowId) (n : TargetId) (frame : CanFrame)

theorem replaceRecord : Keeps s (s.replaceRecord f) := by
  unfold State.replaceRecord
  split
  · exact endSilently s f _
  · exact dropGated s f
  · exact setRecord s f _
  · exact setRecord s f _
  · exact refl s

theorem otherDialogue : Keeps s (s.otherDialogue f n frame) := by
  unfold State.otherDialogue
  split
  · exact setRecord s f _
  · split
    · next room => exact (toSegment s room frame).trans (setRecord _ f _)
    · exact setRecord s f _

theorem refuseFirst (r : Reason) (d : Byte) : Keeps s (s.refuseFirst f n frame r d) :=
  (refuse s n _ r d).trans (setRecord _ f _)

theorem brokenFirst (code : UpdateCode) : Keeps s (s.brokenFirst f n frame code) := by
  unfold State.brokenFirst
  dsimp only
  split
  · exact (refuseFirst s f n frame _ _).trans ((setVerdict _ f _).trans (countFailure _ f))
  · exact refuseFirst s f n frame _ _

theorem earlyVerdict (v : Verdict) : Keeps s (s.earlyVerdict f n frame v) :=
  (refuseFirst s f n frame _ _).trans ((setVerdict _ f _).trans (countFailure _ f))

theorem forwardRequest (code : UpdateCode) (k : PendingKind) : Keeps s (s.forwardRequest f n frame code k) := by
  unfold State.forwardRequest
  split
  · exact tableFault s f n _ code
  · split
    · next room => exact (toSegment s room frame).trans ((beginPending _ f k).trans (setRecord _ f _))
    · exact refuseFirst s f n frame _ _

theorem gate (g : Gated) : Keeps s (s.gate f n frame g) := by
  unfold State.gate
  split
  · exact refuseFirst s f n frame _ _
  · exact (fillCell s _ _).trans ((mapFlow _ f _).trans (gateRequest _ f))

theorem refuseFatal (r : Reason) (k : Condition) : Keeps s (s.refuseFatal f n frame r k) :=
  (refuseFirst s f n frame r _).trans ((offersComeFirst _).trans (failFlow _ f k))

theorem admitErase : Keeps s (s.admitErase f n frame) := by
  unfold State.admitErase
  split
  · exact refuseFirst s f n frame _ _
  · exact tableFault s f n _ _
  · exact refuseFatal s f n frame _ _
  · exact tableFault s f n _ _
  · exact refuseFatal s f n frame _ _
  · split
    · exact refuseFirst s f n frame _ _
    · split
      · exact refuseFirst s f n frame _ _
      · exact gate s f n frame _

theorem admitOpen : Keeps s (s.admitOpen f n frame) := by
  unfold State.admitOpen
  split
  · exact refuseFirst s f n frame _ _
  · exact tableFault s f n _ _
  · exact refuseFatal s f n frame _ _
  · exact tableFault s f n _ _
  · exact refuseFatal s f n frame _ _
  · split
    · exact refuseFirst s f n frame _ _
    · split
      · exact refuseFirst s f n frame _ _
      · exact forwardRequest s f n frame _ _

theorem admitActivate : Keeps s (s.admitActivate f n frame) := by
  unfold State.admitActivate
  split
  · exact refuseFirst s f n frame _ _
  · split
    · exact refuseFirst s f n frame _ _
    · exact gate s f n frame _

theorem passInspected (p : Inspected) : Keeps s (s.passInspected f n frame p) := by
  unfold State.passInspected
  split
  · exact tableFault s f n _ _
  · split
    · next room => exact (toSegment s room frame).trans (setRecord _ f _)
    · exact endBroken s f n _

theorem takeInspected (p : Inspected) (span : FoldSpan) : Keeps s (s.takeInspected f n frame p span) := by
  unfold State.takeInspected
  dsimp only
  split
  · exact (setRecord s f _).trans (endBroken _ f n _)
  · have taken (c : CellId) (x : CellContent) (g : FlowCtx → FlowCtx) :
        Keeps s (((s.fillCell c x).mapFlow f g).wakeEngine (.flow f)) :=
      (fillCell s c x).trans ((mapFlow _ f g).trans (wakeEngine _ _))
    split
    · exact taken _ _ _
    · exact (taken _ _ _).trans (passInspected _ f n frame p)

theorem startInspected (k : Nat) (again : Bool) : Keeps s (s.startInspected f n frame k again) :=
  (mapFlow s f _).trans (takeInspected _ f n frame _ _)

theorem admitBlock : Keeps s (s.admitBlock f n frame) := by
  unfold State.admitBlock
  split
  · exact refuseFirst s f n frame _ _
  · split
    · exact earlyVerdict s f n frame _
    · exact startInspected s f n frame _ _

theorem inspectedCarrier (p : Inspected) : Keeps s (s.inspectedCarrier f n frame p) := by
  unfold State.inspectedCarrier
  dsimp only
  split
  · exact endBroken s f n _
  · split
    · exact endBroken s f n _
    · split
      · exact endBroken s f n _
      · exact takeInspected s f n frame _ _

theorem admitSpecific (c : UpdateCode) : Keeps s (s.admitSpecific f n frame c) := by
  cases c with
  | erase => exact admitErase s f n frame
  | open_ => exact admitOpen s f n frame
  | block => exact admitBlock s f n frame
  | close => exact forwardRequest s f n frame _ _
  | activate => exact admitActivate s f n frame
  | abandon => exact forwardRequest s f n frame _ _

theorem judgeAdmission (c : UpdateCode) : Keeps s (s.judgeAdmission f n frame c) := by
  unfold State.judgeAdmission
  dsimp only
  split
  · exact refuseFirst s f n frame _ _
  · split
    · exact refuseFirst s f n frame _ _
    · split
      · exact refuseFirst s f n frame _ _
      · split
        · exact refuseFirst s f n frame _ _
        · split
          · exact refuseFirst s f n frame _ _
          · split
            · exact brokenFirst s f n frame c
            · split
              · exact refuseFirst s f n frame _ _
              · exact admitSpecific s f n frame c

theorem recordFirst : Keeps s (s.recordFirst f n frame) := by
  unfold State.recordFirst
  dsimp only
  split
  · exact (replaceRecord s f).trans (otherDialogue _ f n frame)
  · exact (replaceRecord s f).trans (judgeAdmission _ f n frame _)

theorem passingCarrier (d k : Nat) : Keeps s (s.passingCarrier f n frame d k) := by
  unfold State.passingCarrier
  split
  · exact setRecord s f _
  · split
    · next room => exact (toSegment s room frame).trans (setRecord _ f _)
    · exact setRecord s f _

theorem recordCarrier : Keeps s (s.recordCarrier f n frame) := by
  unfold State.recordCarrier
  split
  · exact passingCarrier s f n frame _ _
  · split
    · exact refl s
    · exact inspectedCarrier s f n frame _
  · exact refl s
  · exact refl s
  · exact refl s

theorem recordTakes : Keeps s (s.recordTakes f n frame) := by
  unfold State.recordTakes
  split
  · exact recordFirst s f n frame
  · exact recordFirst s f n frame
  · exact recordCarrier s f n frame
  · exact offer s _ _ frame

theorem gapExpiry : Keeps s (s.gapExpiry f) := by
  unfold State.gapExpiry
  split
  · split
    · exact endBroken s f _ _
    · exact refl s
  · exact refl s

/-! ## The trackers -/

theorem trackerFirst : Keeps s (s.trackerFirst n frame) := by
  unfold State.trackerFirst
  split
  · exact (refuse s n _ _ _).trans (setTracker _ n _)
  · split
    · exact setTracker s n _
    · split
      · next room => exact (toSegment s room frame).trans (setTracker _ n _)
      · exact setTracker s n _

theorem trackerCarrier : Keeps s (s.trackerCarrier n frame) := by
  unfold State.trackerCarrier
  split
  · exact refl s
  · exact refl s
  · split
    · exact setTracker s n _
    · split
      · next room => exact toSegment s room frame
      · exact setTracker s n _

theorem trackerTakes : Keeps s (s.trackerTakes n frame) := by
  unfold State.trackerTakes
  split
  · exact trackerFirst s n frame
  · exact trackerFirst s n frame
  · exact trackerCarrier s n frame
  · exact offer s _ _ frame

/-! ## The classifier -/

theorem joinRequests : Keeps s (s.joinRequests frame) := by
  unfold State.joinRequests
  split
  · next few =>
    refine ofRequests s fun _ => ?_
    have size : requestQueueSize = 4 := rfl
    rw [List.length_append, List.length_singleton]
    omega
  · exact refl s

theorem managementFrame (p : Port) : Keeps s (s.managementFrame p frame) := by
  unfold State.managementFrame
  split
  · exact joinRequests s frame
  · exact refl s

theorem offerPlainTo (p : Port) : Keeps s (State.offerPlainTo frame s p) := by
  cases p with
  | trunk => exact offerTrunk s _ frame
  | seg0 => exact offer s _ _ frame
  | seg1 => exact offer s _ _ frame
  | seg2 => exact offer s _ _ frame
  | seg3 => exact offer s _ _ frame

theorem foldl {α : Type} {act : State → α → State} (h : ∀ u a, Keeps u (act u a)) (l : List α) :
    Keeps s (l.foldl act s) :=
  foldl_keeps (Keeps s) act (fun u a k => k.trans (h u a)) l s (refl s)

theorem offerPlain (ports : List Port) : Keeps s (s.offerPlain ports frame) :=
  foldl s (fun u p => offerPlainTo u frame p) ports

theorem lookup (p : Port) (id : CanId) (l : List RouteId) : Keeps s (s.lookup p id l).1 := by
  induction l generalizing s with
  | nil => exact refl s
  | cons r rest ih =>
    unfold State.lookup
    split
    · split
      · exact (setRoute s r _).trans ((raiseFault _ _).trans (ih _))
      · split
        · exact refl s
        · exact ih s
    · exact ih s

theorem routeFrame (p : Port) : Keeps s (s.routeFrame p frame) :=
  (lookup s p frame.id allRoutes).trans (offerPlain _ frame _)

theorem classifierFault : Keeps s (s.classifierFault n) := by
  unfold State.classifierFault
  dsimp only
  split
  · exact (raiseFault s _).trans (failFlow _ _ _)
  · exact raiseFault s _

theorem dialogueRequest : Keeps s (s.dialogueRequest n frame) := by
  unfold State.dialogueRequest
  split
  · exact recordTakes s _ n frame
  · exact trackerTakes s n frame

theorem routingFrame (p : Port) : Keeps s (s.routingFrame p frame) := by
  unfold State.routingFrame
  split
  · split
    · split
      · exact dialogueRequest s _ frame
      · exact refl s
    · split
      · split
        · exact dialogueResponse s _ frame
        · exact refl s
      · exact routeFrame s frame p
  · exact foldl s (fun u m => classifierFault u m) _

theorem classify (p : Port) : Keeps s (s.classify p frame) := by
  unfold State.classify
  split
  · exact managementFrame s frame p
  · split
    · exact offerPlain s frame _
    · exact routingFrame s frame p

end Keeps

end Sys2Proof.Proofs
end

section
/-! What the port units, the check engine, the supply monitor, the window and the responder do keeps the invariants of the
queues, the lists and the identifiers, and so does every step: O56 and O57. -/

namespace Sys2Proof.Proofs
open Sys2Proof.Machine

/-! ## The ports are not touched by what a port's events do to the flows -/

section
variable (s : State)

@[simp] theorem raiseFault_ports (k : FaultFlag) : (s.raiseFault k).ports = s.ports := by
  unfold State.raiseFault
  split <;> rfl

@[simp] theorem flowAlert_ports (f : FlowId) (h : HoldCauses) : (s.flowAlert f h).ports = s.ports := by
  unfold State.flowAlert
  split <;> rfl

@[simp] theorem failFlow_ports (f : FlowId) (k : Condition) : (s.failFlow f k).ports = s.ports := by
  unfold State.failFlow
  dsimp only
  split
  · simp only [flowAlert_ports, State.mapFlow_ports, State.withdrawGate_ports, State.abandonFlowSlice_ports,
      State.freeFlowCells_ports]
  · rfl

@[simp] theorem countFailure_ports (f : FlowId) : (s.countFailure f).ports = s.ports := by
  unfold State.countFailure
  dsimp only
  split
  · simp only [failFlow_ports, State.offersComeFirst_ports, State.mapFlow_ports]
  · rfl

@[simp] theorem dropParcelWork_ports (f : FlowId) : (s.dropParcelWork f).ports = s.ports := by
  simp only [State.dropParcelWork, State.abandonFlowSlice_ports, State.freeFlowCells_ports]

@[simp] theorem refuse_ports (n : TargetId) (c : Byte) (r : Reason) (d : Byte) : (s.refuse n c r d).ports = s.ports :=
  rfl

@[simp] theorem endBroken_ports (f : FlowId) (n : TargetId) (b : Bool) : (s.endBroken f n b).ports = s.ports := by
  simp only [State.endBroken, countFailure_ports, State.setRecord_ports, State.setVerdict_ports, refuse_ports,
    dropParcelWork_ports]

@[simp] theorem dropGated_ports (f : FlowId) : (s.dropGated f).ports = s.ports := by
  simp only [State.dropGated, State.setRecord_ports, State.withdrawGate_ports, State.freeFlowCells_ports]

@[simp] theorem loseWork_ports (f : FlowId) (n : TargetId) : (s.loseWork f n).ports = s.ports := by
  unfold State.loseWork
  split
  · exact endBroken_ports s f n _
  · rw [refuse_ports, dropGated_ports]
  · rfl
  · rfl
  · rfl

@[simp] theorem portReadsFlow_ports (p : Port) (f : FlowId) : (State.portReadsFlow p s f).ports = s.ports := by
  unfold State.portReadsFlow
  split
  · rfl
  · split
    · rfl
    · split
      · rw [failFlow_ports, raiseFault_ports]
      · split
        · exact loseWork_ports s f _
        · rfl

@[simp] theorem flowsAfterEmptying_ports (p : Port) : (s.flowsAfterEmptying p).ports = s.ports := by
  unfold State.flowsAfterEmptying
  split
  · rfl
  · exact foldl_view State.ports (State.portReadsFlow p) (fun u f => portReadsFlow_ports u p f) allFlows s

/-- The queue emptied is that of the port alone (R153, R154). -/
theorem emptyQueue_port (p q : Port) :
    (s.emptyQueue p).port q = if q = p then { s.port p with queue := [] } else s.port q := by
  unfold State.emptyQueue State.clearInFlight
  split
  all_goals exact s.port_setPort p q _

theorem emptyQueue_queue (p : Port) : ((s.emptyQueue p).port p).queue = [] := by
  rw [emptyQueue_port, if_pos rfl]

@[simp] theorem dropReply_ports (p : Port) : (s.dropReply p).ports = s.ports := by
  cases p <;> rfl

@[simp] theorem flowsAfterEmptying_port (p q : Port) : (s.flowsAfterEmptying p).port q = s.port q := by
  rw [State.port_eq, State.port_eq, flowsAfterEmptying_ports]

@[simp] theorem dropReply_port (p q : Port) : (s.dropReply p).port q = s.port q := by
  rw [State.port_eq, State.port_eq, dropReply_ports]

end

/-! ## A port unit under its events -/

/-- The marks of attempts do not count for the rules of a queue. -/
theorem portOk_remark {p : Port} {u : PortUnit} (ok : PortOk p u) {l : List QueuedFrame}
    (same : l.map (fun q => (q.frame, q.cls)) = u.queue.map fun q => (q.frame, q.cls)) :
    PortOk p { u with queue := l } := by
  have count (c : QueueClass → Bool) : l.countP (fun q => c q.cls) = u.queue.countP fun q => c q.cls := by
    have onPairs (m : List QueuedFrame) :
        m.countP (fun q => c q.cls) = (m.map fun q => (q.frame, q.cls)).countP fun x => c x.2 := by
      rw [List.countP_map]
      rfl
    rw [onPairs, onPairs, same]
  have length : l.length = u.queue.length := by simpa only [List.length_map] using congrArg List.length same
  refine ⟨?size, ?ordered, ?plain, ?forwarded, ?generated, ?off, ok.received⟩
  case size => exact length ▸ ok.size
  case ordered =>
    have keys (m : List QueuedFrame) :
        m.map (fun q => idKey q.frame.id) = (m.map fun q => (q.frame, q.cls)).map fun x => idKey x.1.id := by
      rw [List.map_map]
      rfl
    refine (keysOrdered_iff l).mpr ?_
    rw [keys, same, ← keys]
    exact (keysOrdered_iff _).mp ok.ordered
  case plain => exact (count (· == .plain)).trans_le ok.plain
  case forwarded => exact fun trunk => (count fun k => k == .plain || k == .dialogue).trans_le (ok.forwarded trunk)
  case generated =>
    intro segment q hq k hk
    have pair : (q.frame, q.cls) ∈ u.queue.map fun q => (q.frame, q.cls) :=
      same ▸ List.mem_map_of_mem hq
    obtain ⟨x, hx, e⟩ := List.mem_map.mp pair
    exact ok.generated segment x hx k ((congrArg Prod.snd e).trans hk)
  case off =>
    intro off
    have empty := ok.emptyWhenOff off
    exact List.eq_nil_of_length_eq_zero (length.trans (congrArg List.length empty))

/-- A part of a queue in its order keeps the rules. -/
theorem portOk_sublist {p : Port} {u : PortUnit} (ok : PortOk p u) {l : List QueuedFrame} (h : l.Sublist u.queue) :
    PortOk p { u with queue := l } where
  size := h.length_le.trans ok.size
  ordered := ok.ordered.sublist h
  plain := (h.countP_le).trans ok.plain
  forwarded trunk := (h.countP_le).trans (ok.forwarded trunk)
  generated segment q hq := ok.generated segment q (h.mem hq)
  emptyWhenOff off := List.sublist_nil.mp (ok.emptyWhenOff off ▸ h)
  received := ok.received

/-- An empty queue keeps the rules in any confinement state. -/
theorem portOk_ofEmpty {p : Port} {u : PortUnit} (empty : u.queue = []) (received : u.rxErrors ≤ 255) : PortOk p u where
  size := by simp only [empty, List.length_nil, Nat.zero_le]
  ordered := by simp only [empty, KeysOrdered, List.Pairwise.nil]
  plain := by simp only [PortUnit.plainCount, empty, List.countP_nil, Nat.zero_le]
  forwarded _ := by simp only [PortUnit.forwardedCount, empty, List.countP_nil, Nat.zero_le]
  generated _ q hq := by simp only [empty, List.not_mem_nil] at hq
  emptyWhenOff _ := empty
  received := received

/-- Other counts and settings, and another state that carries traffic as the one before, keep the rules. -/
theorem portOk_counted {p : Port} {u v : PortUnit} (ok : PortOk p u) (queue : v.queue = u.queue)
    (carries : v.conf.carries = u.conf.carries) (received : v.rxErrors ≤ 255) : PortOk p v where
  size := queue ▸ ok.size
  ordered := queue ▸ ok.ordered
  plain := by
    unfold PortUnit.plainCount
    rw [queue]
    exact ok.plain
  forwarded trunk := by
    unfold PortUnit.forwardedCount
    rw [queue]
    exact ok.forwarded trunk
  generated := queue ▸ ok.generated
  emptyWhenOff off := queue ▸ ok.emptyWhenOff (carries ▸ off)
  received := received

/-- Judging a port leaves all but a state that carries traffic (R152). -/
theorem judged_frame (u : PortUnit) :
    u.judged.queue = u.queue ∧ u.judged.conf.carries = u.conf.carries ∧ u.judged.rxErrors = u.rxErrors := by
  have carried (c : Bool) : (if c then Confinement.passive else .active).carries = true := by cases c <;> rfl
  cases h : u.conf.carries with
  | true =>
    rw [PortUnit.judged_eq u h]
    refine ⟨rfl, ?_, rfl⟩
    dsimp only [judgedState]
    split <;> rfl
  | false =>
    rw [PortUnit.judged_of_not_carries u h]
    exact ⟨rfl, h, rfl⟩

theorem portOk_judged {p : Port} {u : PortUnit} (ok : PortOk p u) : PortOk p u.judged := by
  obtain ⟨queue, carries, received⟩ := judged_frame u
  exact portOk_counted ok queue carries (received ▸ ok.received)

theorem unmark_pairs (l : List QueuedFrame) :
    (unmark l).map (fun q => (q.frame, q.cls)) = l.map fun q => (q.frame, q.cls) := by
  rw [unmark, List.map_map]
  rfl

theorem markHead_pairs (l : List QueuedFrame) :
    (markHead l).map (fun q => (q.frame, q.cls)) = l.map fun q => (q.frame, q.cls) := by
  cases l <;> rfl

end Sys2Proof.Proofs
end

section
/-! What the port units, the check engine, the supply monitor and the window do keeps the invariants of the queues, the
lists and the identifiers (C5 to C8). -/

namespace Sys2Proof.Proofs
open Sys2Proof.Machine

namespace Keeps

variable (s : State)

/-! ## Port events -/

theorem arrival (p : Port) (frame : CanFrame) : Keeps s (s.arrival p frame) := by
  unfold State.arrival
  split
  · refine (setPort s fun ok => ?_).trans (classify _ frame p)
    refine portOk_judged (portOk_counted ok rfl rfl ?_)
    have := ok.received
    dsimp only
    omega
  · exact refl s

theorem receptionError (p : Port) : Keeps s (s.receptionError p) := by
  unfold State.receptionError
  split
  · exact setPort s fun ok => portOk_judged (portOk_counted ok rfl rfl (Nat.min_le_left _ _))
  · exact refl s

theorem unmarked (p : Port) : Keeps s (s.setPort p { s.port p with queue := unmark (s.port p).queue }) :=
  setPort s fun ok => portOk_remark ok (unmark_pairs _)

theorem attemptStart (p : Port) : Keeps s (s.attemptStart p) := by
  unfold State.attemptStart
  split
  · exact setPort s fun ok => portOk_remark ok (markHead_pairs _)
  · exact refl s

theorem transmissionSuccess (p : Port) : Keeps s (s.transmissionSuccess p) := by
  unfold State.transmissionSuccess
  split
  · refine (setPort s fun ok => ?_).trans (clearInFlight _ _)
    have rest := portOk_sublist ok (List.eraseP_sublist (p := QueuedFrame.sending))
    exact portOk_judged (portOk_counted rest rfl rfl ok.received)
  · exact refl s

theorem loseWork (f : FlowId) (n : TargetId) : Keeps s (s.loseWork f n) := by
  unfold State.loseWork
  split
  · exact endBroken s f n _
  · exact (dropGated s f).trans (refuse _ n _ _ _)
  · exact refl s
  · exact refl s
  · exact refl s

theorem portReadsFlow (p : Port) (f : FlowId) : Keeps s (State.portReadsFlow p s f) := by
  unfold State.portReadsFlow
  split
  · exact refl s
  · split
    · exact refl s
    · split
      · exact (raiseFault s _).trans (failFlow _ f _)
      · split
        · exact loseWork s f _
        · exact refl s

theorem flowsAfterEmptying (p : Port) : Keeps s (s.flowsAfterEmptying p) := by
  unfold State.flowsAfterEmptying
  split
  · exact refl s
  · exact foldl s (fun u f => portReadsFlow u p f) allFlows

theorem dropReply (p : Port) : Keeps s (s.dropReply p) := by
  unfold State.dropReply
  split
  · exact ofRequests s id
  · exact refl s

theorem emptyQueue (p : Port) : Keeps s (s.emptyQueue p) :=
  (setPort s fun ok => portOk_sublist ok (List.nil_sublist _)).trans (clearInFlight _ _)

/-- A port whose queue is empty takes any confinement state (R152, R155). -/
theorem setEmptyPort {p : Port} {u : PortUnit} (empty : u.queue = [])
    (received : (s.port p).rxErrors ≤ 255 → u.rxErrors ≤ 255) : Keeps s (s.setPort p u) :=
  setPort s fun ok => portOk_ofEmpty empty (received ok.received)

theorem enterOff (p : Port) : Keeps s (s.enterOff p) := by
  unfold State.enterOff
  dsimp only
  have emptied := emptyQueue_queue s p
  refine (emptyQueue s p).trans ((setEmptyPort (p := p) (u := { (s.emptyQueue p).port p with conf := .off }) _ emptied
    id).trans ((flowsAfterEmptying _ p).trans ((dropReply _ p).trans
      (setEmptyPort (u := PortUnit.off _) _ ?_ id))))
  simp only [PortUnit.off, dropReply_port, flowsAfterEmptying_port, State.port_setPort, if_true]
  exact emptied

theorem transmissionError (p : Port) : Keeps s (s.transmissionError p) := by
  have failed : Keeps s (s.setPort p (s.port p).sendFailed) :=
    setPort s fun ok => portOk_counted (portOk_remark ok (unmark_pairs _)) rfl rfl ok.received
  unfold State.transmissionError
  dsimp only
  split
  · split
    · exact failed.trans (enterOff _ p)
    · exact failed.trans (setPort _ fun ok => portOk_judged ok)
  · exact refl s

theorem recoveryComplete (p : Port) : Keeps s (s.recoveryComplete p) := by
  unfold State.recoveryComplete
  split
  · next done =>
    refine setPort s fun ok => portOk_ofEmpty (ok.emptyWhenOff ?_) (Nat.zero_le _)
    obtain ⟨recovering, -⟩ := (PortUnit.recovered_iff _).mp done
    rw [recovering]
    rfl
  · exact refl s

theorem restart (p : Port) : Keeps s (s.restart p) := by
  unfold State.restart
  dsimp only
  split
  · refine (emptyQueue s p).trans ((flowsAfterEmptying _ p).trans (setEmptyPort (u := PortUnit.active _) _ ?_ fun _ => Nat.zero_le _))
    simp only [PortUnit.active, flowsAfterEmptying_port]
    exact emptyQueue_queue s p
  · exact (emptyQueue s p).trans (setEmptyPort _ (emptyQueue_queue s p) fun _ => Nat.zero_le _)

/-! ## The check engine -/

theorem mismatch (f : FlowId) (n : TargetId) : Keeps s (s.mismatch f n) :=
  (freeFlowCells s f).trans
    ((refuse _ n _ _ _).trans ((setVerdict _ f _).trans ((setRecord _ f _).trans (countFailure _ f))))

theorem releaseBlock (f : FlowId) (n : TargetId) (p : Inspected) (x : CellContent) :
    Keeps s (s.releaseBlock f n p x) := by
  unfold State.releaseBlock
  dsimp only
  split
  · exact tableFault s f n _ _
  · split
    · next room =>
      exact (toSegment s room _).trans ((beginPending _ f _).trans ((freeFlowCells _ f).trans
        ((setVerdict _ f _).trans (setRecord _ f _))))
    · exact endBroken s f n _

theorem compare (f : FlowId) (n : TargetId) (p : Inspected) (x : CellContent) : Keeps s (s.compare f n p x) := by
  unfold State.compare
  dsimp only
  split
  · exact tableFault s f n _ _
  · split
    · exact tableFault s f n _ _
    · split
      · exact releaseBlock s f n p x
      · exact mismatch s f n

theorem flowSliceResult (f : FlowId) (c : CellId) (x : Cell) : Keeps s (s.flowSliceResult f c x) := by
  unfold State.flowSliceResult
  dsimp only
  split
  · split
    · exact (raiseFault s _).trans (endBroken _ f _ _)
    · split
      · exact (mapFlow s f _).trans (compare _ f _ _ _)
      · exact (mapFlow s f _).trans (freeCell _ c)
  · exact refl s

theorem flowSliceComplete : Keeps s s.flowSliceComplete := by
  unfold State.flowSliceComplete
  split
  · refine trans ?_ (nextSlice _)
    split
    · exact refl s
    · exact flowSliceResult s _ _ _
  · exact refl s
  · exact refl s

theorem endSelfCheck (i : ImageId) (r : ImageState) (w : Word) (b : Bool) : Keeps s (s.endSelfCheck i r w b) :=
  (setImage s i _).trans (queueAlert _ _)

theorem selfCheckFault (i : ImageId) (k : FaultFlag) : Keeps s (s.selfCheckFault i k) :=
  (raiseFault s k).trans (endSelfCheck _ i _ _ _)

theorem selfCheckCompare (i : ImageId) : Keeps s (s.selfCheckCompare i) := by
  unfold State.selfCheckCompare
  dsimp only
  split
  · exact selfCheckFault s i _
  · exact endSelfCheck s i _ _ _

theorem imageSliceResult (i : ImageId) (b : List Byte) (n : Nat) (e : Option FaultFlag) :
    Keeps s (s.imageSliceResult i b n e) := by
  unfold State.imageSliceResult
  dsimp only
  split
  · exact selfCheckFault s i _
  · split
    · exact selfCheckFault s i _
    · split
      · exact (setImage s i _).trans (selfCheckCompare _ i)
      · exact setImage s i _

theorem imageSliceComplete : Keeps s s.imageSliceComplete := by
  unfold State.imageSliceComplete
  split
  · refine trans ?_ (nextSlice _)
    split
    · exact refl s
    · exact imageSliceResult s _ _ _ _
  · exact refl s
  · exact refl s

/-! ## The supply monitor -/

/-- The sampling state outside the two sets of gate requests. -/
theorem sampling {g : Supply → Supply} (waiting : (g s.supply).waiting = s.supply.waiting)
    (converter : (g s.supply).converter = s.supply.converter) : Keeps s (s.mapSupply g) :=
  mapSupply s fun k => ⟨waiting.symm ▸ k.waiting, fun done flows h => k.served done flows (converter.symm.trans h)⟩

/-- The converter stands still. -/
theorem converterIdle : Keeps s (s.mapSupply fun m => { m with converter := .idle }) :=
  mapSupply s fun k => ⟨k.waiting, fun done flows h => by simp only [State.mapSupply, reduceCtorEq] at h⟩

theorem supplyHold (f : FlowId) : Keeps s (s.supplyHold f) := by
  unfold State.supplyHold
  dsimp only
  split
  · refine (mapFlow s f fun c => { c with holds := { c.holds with supply := true } }).trans ?_
    split
    · exact (dropParcelWork _ f).trans ((refuse _ _ _ _ _).trans ((setVerdict _ f _).trans (setRecord _ f _)))
    · exact (dropGated _ f).trans (refuse _ _ _ _ _)
    · exact refl _
  · exact refl s

theorem flowsAtSupplyChange (old new : SupplyState) : Keeps s (s.flowsAtSupplyChange old new) := by
  unfold State.flowsAtSupplyChange
  split
  · exact foldl s (fun u f => supplyHold u f) allFlows
  · split
    · exact foldl s (fun u f => mapFlow u f _) allFlows
    · exact refl s

theorem changeSupply (new : SupplyState) (v : Nat) : Keeps s (s.changeSupply new v) := by
  unfold State.changeSupply
  dsimp only
  exact (sampling s rfl rfl).trans
    ((flowsAtSupplyChange _ _ _).trans ((offersComeFirst _).trans (queueAlert _ _)))

theorem filter (v : Nat) : Keeps s (s.filter v) := by
  unfold State.filter
  dsimp only
  split
  · exact sampling s rfl rfl
  · split
    · exact changeSupply s _ v
    · exact sampling s rfl rfl

theorem refuseGated (f : FlowId) (n : TargetId) (g : Gated) (r : Reason) (d : Byte) :
    Keeps s (s.refuseGated f n g r d) :=
  (dropGated s f).trans (refuse _ n _ r d)

theorem forwardGated (f : FlowId) (n : TargetId) (g : Gated) : Keeps s (s.forwardGated f n g) := by
  unfold State.forwardGated
  split
  · exact tableFault s f n _ _
  · split
    · exact (raiseFault s _).trans (refuseGated _ f n g _ _)
    · split
      · next room => exact (toSegment s room _).trans ((beginPending _ f _).trans (dropGated _ f))
      · exact refuseGated s f n g _ _

theorem gateAnswer (v : Nat) (f : FlowId) : Keeps s (State.gateAnswer v s f) := by
  unfold State.gateAnswer
  split
  · split
    · exact refuseGated s f _ _ _ _
    · split
      · exact refuseGated s f _ _ _ _
      · exact forwardGated s f _ _
  · exact refl s

theorem nextConversion : Keeps s s.nextConversion := by
  unfold State.nextConversion
  split
  · exact (sampling s rfl rfl).trans (startConversion _)
  · exact converterIdle s

theorem conversionComplete (raw : Nat) : Keeps s (s.conversionComplete raw) := by
  unfold State.conversionComplete
  dsimp only
  split
  · exact (sampling s rfl rfl).trans ((filter _ _).trans
      ((foldl _ (fun u f => gateAnswer u _ f) _).trans (nextConversion _)))
  · exact refl s

theorem sampleTime : Keeps s s.sampleTime := by
  unfold State.sampleTime
  dsimp only
  split
  · refine trans ?_ (sampling _ rfl rfl)
    split
    · exact startConversion s
    · exact sampling s rfl rfl
  · exact refl s

/-! ## The update window -/

theorem clearTrackers : Keeps s s.clearTrackers := by
  refine foldl s (fun u f => ?_) allFlows
  unfold State.clearTrackerOf
  split
  · exact refl u
  · split
    · exact setTracker u _ _
    · exact refl u

theorem clearRecordOf (f : FlowId) : Keeps s (s.clearRecordOf f) := by
  unfold State.clearRecordOf
  split
  · exact setRecord s f _
  · exact refl s

theorem setWindow (w : Window) : Keeps s { s with window := w } := of_watched rfl

theorem closeWindow (cause : ClosureCause) : Keeps s (s.closeWindow cause) := by
  unfold State.closeWindow
  dsimp only
  exact (foldl s (fun u f => failFlow u f _) allFlows).trans ((foldl _ (fun u f => clearRecordOf u f) allFlows).trans
    ((clearTrackers _).trans ((setWindow _ _).trans (queueAlert _ _))))

theorem windowExpiry : Keeps s s.windowExpiry := by
  unfold State.windowExpiry
  split
  · exact closeWindow s _
  · exact refl s

end Keeps

end Sys2Proof.Proofs
end

section
/-! What the responder, the requests and the outside do keeps the invariants of the queues, the lists and the identifiers
(C9, R20, R22, R27, R160 to R168). -/

namespace Sys2Proof.Proofs
open Sys2Proof.Machine

/-! ## Writing a target entry (R20, R22) -/

/-- The entries a written entry is held against (R22). -/
theorem mem_otherTargets (s : State) (n : TargetId) (e : TargetEntry) :
    e ∈ s.otherTargets n ↔ ∃ m, m ≠ n ∧ (s.target m).state = .valid ∧ s.target m = e := by
  simp only [State.otherTargets, List.mem_map, List.mem_filter, mem_allTargets, true_and, Bool.and_eq_true, bne_iff_ne,
    beq_iff_eq, ne_eq, and_assoc]

/-- An entry duplicates no identifier when its two differ, are none of the management identifiers and are none of another
VALID entry (R22). -/
theorem duplicate_eq_false_iff (s : State) (n : TargetId) (e : TargetEntry) :
    s.duplicate n e = false ↔ e.request ≠ e.response
      ∧ (e.request ∉ managementIds s.strap ∧ e.response ∉ managementIds s.strap)
      ∧ ∀ m, m ≠ n → (s.target m).state = .valid →
        (e.request ≠ (s.target m).request ∧ e.request ≠ (s.target m).response)
          ∧ e.response ≠ (s.target m).request ∧ e.response ≠ (s.target m).response := by
  have taken (i : CanId) : (s.takenIds n).contains i = false ↔ i ∉ managementIds s.strap
      ∧ ∀ m, m ≠ n → (s.target m).state = .valid → i ≠ (s.target m).request ∧ i ≠ (s.target m).response := by
    rw [← Bool.not_eq_true, List.contains_iff_mem]
    simp only [State.takenIds, List.mem_append, List.mem_flatMap, mem_otherTargets, List.mem_cons, List.not_mem_nil,
      or_false, not_or, not_exists, not_and]
    refine and_congr Iff.rfl ⟨fun h m other valid => h _ ⟨m, other, valid, rfl⟩, ?_⟩
    rintro h _ ⟨m, other, valid, rfl⟩
    exact h m other valid
  unfold State.duplicate
  rw [Bool.or_eq_false_iff, Bool.or_eq_false_iff, taken, taken, beq_eq_false_iff_ne]
  constructor
  · rintro ⟨⟨own, mr, r⟩, mp, p⟩
    exact ⟨own, ⟨mr, mp⟩, fun m other valid => ⟨r m other valid, p m other valid⟩⟩
  · rintro ⟨own, ⟨mr, mp⟩, h⟩
    exact ⟨⟨own, mr, fun m other valid => (h m other valid).1⟩, mp, fun m other valid => (h m other valid).2⟩

/-- An entry that is EMPTY, or that duplicates no identifier, leaves the identifiers distinct (R20, R22). -/
theorem IdsDistinct_setTarget {s : State} {n : TargetId} {e : TargetEntry} (h : IdsDistinct s)
    (out : s.resetHeld = false) (fresh : e.state = .valid → s.duplicate n e = false) :
    IdsDistinct (s.setTarget n e) := by
  have written : Sound (s.setTarget n e) n → e.request ≠ e.response
      ∧ (e.request ∉ managementIds s.strap ∧ e.response ∉ managementIds s.strap)
      ∧ ∀ m, m ≠ n → (s.target m).state = .valid →
        (e.request ≠ (s.target m).request ∧ e.request ≠ (s.target m).response)
          ∧ e.response ≠ (s.target m).request ∧ e.response ≠ (s.target m).response := by
    intro sound
    refine (duplicate_eq_false_iff s n e).mp (fresh ?_)
    simpa only [State.target_setTarget, if_true] using sound.1
  have at_n : (s.setTarget n e).target n = e := by rw [State.target_setTarget, if_pos rfl]
  have elsewhere {m : TargetId} (other : m ≠ n) : (s.setTarget n e).target m = s.target m := by
    rw [State.target_setTarget, if_neg other]
  have kept {m : TargetId} (other : m ≠ n) (sound : Sound (s.setTarget n e) m) : Sound s m := by
    simpa only [Sound, elsewhere other] using sound
  refine ⟨fun held => ?_, fun m sound => ?_, fun m sound => ?_, fun m k soundM soundK apart => ?_⟩
  · cases out.symm.trans held
  · by_cases same : m = n
    · subst same
      rw [at_n]
      exact (written sound).2.1
    · rw [elsewhere same]
      exact h.management m (kept same sound)
  · by_cases same : m = n
    · subst same
      rw [at_n]
      exact (written sound).1
    · rw [elsewhere same]
      exact h.own m (kept same sound)
  · by_cases same : m = n
    · subst same
      have other : k ≠ m := fun eq => apart eq.symm
      obtain ⟨⟨rr, rp⟩, -, pp⟩ := (written soundM).2.2 k other (kept other soundK).1
      rw [at_n, elsewhere other]
      exact ⟨rr, rp, pp⟩
    · by_cases same' : k = n
      · subst same'
        obtain ⟨⟨rr, -⟩, pr, pp⟩ := (written soundK).2.2 m same (kept same soundM).1
        rw [at_n, elsewhere same]
        exact ⟨rr.symm, pr.symm, pp.symm⟩
      · rw [elsewhere same, elsewhere same']
        exact h.others m k (kept same soundM) (kept same' soundK) apart

namespace Keeps

variable (s : State)

/-! ## The trunk queue and the responder -/

theorem setMgmtSlot (c : Option CanFrame) : Keeps s { s with mgmt := { s.mgmt with slot := c } } := ofRequests s id

theorem dropHead : Keeps s s.dropHead :=
  ofRequests s fun h => (List.length_tail ▸ Nat.sub_le _ _).trans h

theorem reply (frame : CanFrame) (a : Answer) : Keeps s (s.reply frame a) := by
  unfold State.reply
  split
  · exact setMgmtSlot s _
  · exact refl s

theorem replyEnqueue : Keeps s s.replyEnqueue := by
  unfold State.replyEnqueue
  split
  · exact refl s
  · split
    · next frame _ room => exact (setMgmtSlot s none).trans (enqueue { s with mgmt := { s.mgmt with slot := none } } room frame)
    · exact refl s

theorem alertMove : Keeps s s.alertMove := by
  unfold State.alertMove
  split
  · exact refl s
  · next a rest entries =>
    split
    · next ready =>
      have room : s.room .trunk (.generated .alert) = true := by
        unfold State.alertReady at ready
        exact (Bool.and_eq_true_iff.mp ready).2
      refine (ofAlerts s (a := ⟨rest, true⟩) fun h => ?_).trans (enqueue { s with alerts := ⟨rest, true⟩ } room _)
      rw [entries] at h
      exact (List.nodup_cons.mp h).2
    · exact refl s

theorem setOffers (l : List Offer) : Keeps s { s with offers := l } := of_watched rfl

theorem setFreeCount (k : Nat) : Keeps s { s with freeCount := k } := of_watched rfl

theorem offerJoins : Keeps s s.offerJoins := by
  unfold State.offerJoins
  split
  · exact refl s
  · exact (setOffers s _).trans (offer _ _ _ _)

theorem takeClaim (c : TrunkClaim) : Keeps s (s.takeClaim c) := by
  cases c with
  | offer => exact offerJoins s
  | reply => exact replyEnqueue s
  | alert => exact alertMove s

theorem trunkTakes : Keeps s s.trunkTakes :=
  s.trunkTakes_keeps (Keeps s) (fun u c h => h.trans (takeClaim u c)) (fun u k h => h.trans (setFreeCount u k)) (refl s)

/-- What a request is carried out with, its reply and the end of the event keep what the carrying out keeps (R160). -/
theorem takeRequest {r : Request} {carry : List Byte → State → State × Answer}
    (h : ∀ u p, u.resetHeld = s.resetHeld → Keeps u (carry p u).1) : Keeps s (s.takeRequest r carry) := by
  unfold State.takeRequest
  split
  · exact refl s
  · split
    · split
      · exact (dropHead s).trans ((h s.dropHead _ rfl).trans ((reply _ _ _).trans (trunkTakes _)))
      · exact (dropHead s).trans (reply _ _ _)
    · exact refl s

theorem requestWithoutTag : Keeps s s.requestWithoutTag := by
  unfold State.requestWithoutTag
  split
  · exact refl s
  · split
    · exact refl s
    · exact dropHead s

theorem unknownRequest : Keeps s s.unknownRequest := by
  unfold State.unknownRequest
  split
  · exact refl s
  · split
    · exact (dropHead s).trans (reply _ _ _)
    · exact refl s

/-! ## The requests -/

variable (p : List Byte)

theorem carryPortSet : Keeps s (State.carryPortSet p s).1 := by
  unfold State.carryPortSet
  split
  · next port nominal data auto _ _ _ _ =>
    have set : Keeps s (s.setPort port { s.port port with nominal := nominal, dataRate := data, autoRecovery := auto }) :=
      setPort s fun ok => portOk_counted ok rfl rfl ok.received
    exact set.trans (restart _ port)
  · exact refl s

theorem carryPortRestart : Keeps s (State.carryPortRestart p s).1 := by
  unfold State.carryPortRestart
  split
  · exact refl s
  · split
    · exact restart s _
    · exact refl s

theorem carryRouteWrite : Keeps s (State.carryRouteWrite p s).1 := by
  unfold State.carryRouteWrite
  split
  · exact setRoute s _ _
  · exact refl s

theorem carryRouteRead : Keeps s (State.carryRouteRead p s).1 := by
  unfold State.carryRouteRead
  dsimp only
  split
  · exact refl s
  · split
    · exact (setRoute s _ _).trans (raiseFault _ _)
    · exact refl s

theorem carryRoutingEnable : Keeps s (State.carryRoutingEnable p s).1 := by
  unfold State.carryRoutingEnable
  split
  · exact refl s
  · exact of_watched rfl

theorem carryFaultsClear : Keeps s (State.carryFaultsClear p s).1 := by
  unfold State.carryFaultsClear
  dsimp only
  split
  · exact refl s
  · exact of_watched rfl

theorem writeTarget (n : TargetId) (e : TargetEntry) (out : s.resetHeld = false) : Keeps s (s.writeTarget n e).1 := by
  unfold State.writeTarget
  dsimp only
  split
  · exact refl s
  · split
    · have flagged := raiseIf s ((s.otherTargets n).any (·.parityBad)) .target
      split
      · exact flagged
      · next fresh =>
        obtain ⟨bad, duplicate⟩ := Bool.or_eq_false_iff.mp (Bool.eq_false_of_not_eq_true fresh)
        rw [bad] at duplicate ⊢
        exact setTarget s fun h => IdsDistinct_setTarget h out fun _ => duplicate
    · next empty => exact setTarget s fun h => IdsDistinct_setTarget h out fun valid => absurd valid empty

theorem carryTargetWrite (out : s.resetHeld = false) : Keeps s (State.carryTargetWrite p s).1 := by
  unfold State.carryTargetWrite
  split
  · exact writeTarget s _ _ out
  · exact refl s

theorem carryTargetRead : Keeps s (State.carryTargetRead p s).1 := by
  unfold State.carryTargetRead
  dsimp only
  split
  · exact refl s
  · exact (setFreeCount s _).trans (raiseIf _ _ _)

theorem loadRequest (i : ImageId) (k : ImageState) {go : State → State × Answer} (h : Keeps s (go s).1) :
    Keeps s (s.loadRequest i k go).1 := by
  unfold State.loadRequest
  split
  · exact raiseFault s _
  · split
    · exact refl s
    · split
      · exact refl s
      · exact h

theorem beginImage (i : ImageId) (tag : Word) (regions : Nat) {count : Nat} (pos : 0 < count) :
    Keeps s (State.beginImage i tag regions count s).1 := by
  unfold State.beginImage
  split
  · exact refl s
  · next first found =>
    refine (ofExtents s fun ordered => ?_).trans (setImage _ i _)
    exact insertExtent_ordered ordered pos (firstFit_some (ExtentsFrom.zero ordered) found).2.1

theorem carryImageBegin : Keeps s (State.carryImageBegin p s).1 := by
  unfold State.carryImageBegin
  dsimp only
  split
  · exact refl s
  · split
    · exact refl s
    · next legal =>
      simp only [not_or] at legal
      obtain ⟨-, -, count, -⟩ := legal
      exact loadRequest s _ _ (beginImage s _ _ _ (Nat.pos_of_ne_zero count))

theorem loadRegion (i : ImageId) (k : Nat) (g : Region) : Keeps s (State.loadRegion i k g s).1 := by
  unfold State.loadRegion
  dsimp only
  split
  · exact refl s
  · split
    · exact refl s
    · split
      · exact raiseIf s _ _
      · exact (raiseIf s _ _).trans (setImage _ i _)

theorem carryImageRegion : Keeps s (State.carryImageRegion p s).1 := by
  unfold State.carryImageRegion
  split
  · exact loadRequest s _ _ (loadRegion s _ _ _)
  · exact refl s

theorem loadChecks (i : ImageId) (start : Nat) (values : List Word) :
    Keeps s (State.loadChecks i start values s).1 := by
  unfold State.loadChecks
  dsimp only
  split
  · exact refl s
  · exact (ofCheckList s fun wf => CheckMem.writeAll_wf wf _ _).trans (setImage _ i _)

theorem carryImageChecks : Keeps s (State.carryImageChecks p s).1 := by
  unfold State.carryImageChecks
  dsimp only
  split
  · exact refl s
  · split
    · exact refl s
    · exact loadRequest s _ _ (loadChecks s _ _ _)

theorem endImage (i : ImageId) (expected : Word) (level : Nat) : Keeps s (State.endImage i expected level s).1 := by
  unfold State.endImage
  dsimp only
  split
  · exact (raiseIf s _ _).trans ((setImage _ i _).trans (wakeEngine _ _))
  · exact raiseIf s _ _

theorem carryImageEnd : Keeps s (State.carryImageEnd p s).1 := by
  unfold State.carryImageEnd
  split
  · exact refl s
  · split
    · exact refl s
    · exact loadRequest s _ _ (endImage s _ _ _)

theorem discard (i : ImageId) : Keeps s (s.discard i) := by
  have filtered (l : List ExtentEntry) (h : ExtentsOrdered l) : ExtentsOrdered (l.filter fun e => e.image != i) :=
    ⟨h.1.sublist List.filter_sublist, fun e he => h.2 e (List.mem_filter.mp he).1⟩
  exact (abandonImageSlice s i).trans ((ofExtents _ (filtered _)).trans (setImage _ i _))

theorem carryImageDiscard : Keeps s (State.carryImageDiscard p s).1 := by
  unfold State.carryImageDiscard
  dsimp only
  split
  · exact refl s
  · split
    · exact raiseIf s _ _
    · exact (raiseIf s _ _).trans (discard _ _)

theorem carryImageQuery : Keeps s (State.carryImageQuery p s).1 := by
  unfold State.carryImageQuery
  split
  · exact refl s
  · exact (raiseIf s _ _).trans (removeAlert _ _)

theorem openWindow (period : Nat) : Keeps s (s.openWindow period) := by
  unfold State.openWindow
  exact (setWindow s _).trans (clearTrackers _)

theorem carryWindowOpen : Keeps s (State.carryWindowOpen p s).1 := by
  unfold State.carryWindowOpen
  dsimp only
  split
  · exact refl s
  · split
    · exact refl s
    · split
      · exact refl s
      · simp only [State.done]
        exact openWindow s _

theorem carryWindowRenew : Keeps s (State.carryWindowRenew p s).1 := by
  unfold State.carryWindowRenew
  dsimp only
  split
  · exact refl s
  · split
    · exact refl s
    · split
      · exact setWindow s _
      · split
        · exact refl s
        · exact setWindow s _

theorem carryWindowClose : Keeps s (State.carryWindowClose p s).1 := by
  unfold State.carryWindowClose
  split
  · exact refl s
  · exact closeWindow s _

theorem carryFlowBind : Keeps s (State.carryFlowBind p s).1 := by
  have checked (f : FlowId) (n : TargetId) (i : ImageId) (q : FlowParams) : Keeps s (s.bindChecked f n i q).1 := by
    unfold State.bindChecked
    dsimp only
    split
    · exact raiseFault s _
    · split
      · exact refl s
      · split
        · exact raiseFault s _
        · split
          · exact refl s
          · exact (setFlow s f _).trans ((mapReferences _ i _).trans (setTracker _ n _))
  unfold State.carryFlowBind
  split
  · exact refl s
  · split
    · exact refl s
    · split
      · exact checked _ _ _ _
      · exact refl s

theorem releaseFlow (f : FlowId) : Keeps s (s.releaseFlow f) := by
  unfold State.releaseFlow
  dsimp only
  refine trans ?_ (setFlow _ f _)
  have dropped := (freeFlowCells s f).trans
    ((abandonFlowSlice _ f).trans ((withdrawGate _ f).trans (removeAlert _ (.flow f))))
  split
  · exact dropped.trans ((mapReferences _ _ _).trans (setTracker _ _ _))
  · exact dropped

theorem carryFlowRelease : Keeps s (State.carryFlowRelease p s).1 := by
  unfold State.carryFlowRelease
  split
  · exact refl s
  · split
    · exact refl s
    · exact releaseFlow s _

theorem setMaster (f : FlowId) (v : Bool) : Keeps s (s.setMaster f v).1 := of_watched rfl

theorem carryFlowHold : Keeps s (State.carryFlowHold p s).1 := by
  unfold State.carryFlowHold
  split
  · exact refl s
  · split
    · exact setMaster s _ _
    · exact refl s

theorem carryFlowResume : Keeps s (State.carryFlowResume p s).1 := by
  unfold State.carryFlowResume
  split
  · exact refl s
  · split
    · exact setMaster s _ _
    · exact refl s

theorem carryFlowQuery : Keeps s (State.carryFlowQuery p s).1 := by
  unfold State.carryFlowQuery
  split
  · exact refl s
  · exact removeAlert s _

theorem setSupply (g : SupplySettings) : Keeps s (s.setSupply g) := by
  unfold State.setSupply
  exact sampling s rfl rfl

theorem carrySupplySet : Keeps s (State.carrySupplySet p s).1 := by
  unfold State.carrySupplySet
  split
  · exact setSupply s _
  · exact refl s

/-- Every request that is carried out keeps the invariants. -/
theorem carry (r : Request) (out : s.resetHeld = false) : Keeps s (State.carry r p s).1 := by
  cases r with
  | status => exact refl s
  | faultsClear => exact carryFaultsClear s p
  | portSet => exact carryPortSet s p
  | portRestart => exact carryPortRestart s p
  | routeWrite => exact carryRouteWrite s p
  | routeRead => exact carryRouteRead s p
  | routingEnable => exact carryRoutingEnable s p
  | targetWrite => exact carryTargetWrite s p out
  | targetRead => exact carryTargetRead s p
  | imageBegin => exact carryImageBegin s p
  | imageRegion => exact carryImageRegion s p
  | imageChecks => exact carryImageChecks s p
  | imageEnd => exact carryImageEnd s p
  | imageDiscard => exact carryImageDiscard s p
  | imageQuery => exact carryImageQuery s p
  | windowOpen => exact carryWindowOpen s p
  | windowRenew => exact carryWindowRenew s p
  | windowClose => exact carryWindowClose s p
  | flowBind => exact carryFlowBind s p
  | flowRelease => exact carryFlowRelease s p
  | flowHold => exact carryFlowHold s p
  | flowResume => exact carryFlowResume s p
  | flowQuery => exact carryFlowQuery s p
  | supplySet => exact carrySupplySet s p
  | supplyQuery => exact refl s

end Keeps

end Sys2Proof.Proofs
end

section
/-! Every step keeps the invariants of the queues, the lists and the identifiers (O55, O56, O57). -/

namespace Sys2Proof.Proofs
open Sys2Proof.Machine

/-! ## A reset -/

section
variable (pending : List Instr) (outside : List Outside) (now : Time) (freeCount : Nat)

/-- The state a reset leaves, whatever the model's own bookkeeping is. -/
def resetWith : State :=
  { State.reset with pending := pending, outside := outside, now := now, freeCount := freeCount }

theorem resetWith_target (n : TargetId) : (resetWith pending outside now freeCount).target n = TargetEntry.reset := by
  show (Vector.replicate 32 TargetEntry.reset).get n = _
  rw [Vector.get_eq_getElem, Vector.getElem_replicate]

theorem resetWith_port (p : Port) : (resetWith pending outside now freeCount).port p = PortUnit.reset := by
  cases p <;> rfl

theorem queuesOk_resetWith : QueuesOk (resetWith pending outside now freeCount) := by
  refine ⟨fun p => ?_, Nat.zero_le _⟩
  rw [resetWith_port]
  exact portOk_ofEmpty rfl (Nat.zero_le _)

theorem gatesAscending_resetWith : GatesAscending (resetWith pending outside now freeCount) :=
  ⟨List.Pairwise.nil, fun done flows h => by cases h⟩

theorem extentsOrdered_resetWith : ExtentsOrdered (resetWith pending outside now freeCount).extents :=
  ⟨List.Pairwise.nil, fun e he => by cases he⟩

/-- An EMPTY table names no identifier. -/
theorem idsDistinct_of_empty {s : State} (empty : ∀ n, (s.target n).state = .empty) : IdsDistinct s := by
  have unsound {n : TargetId} (h : Sound s n) : False := by cases (empty n).symm.trans h.1
  exact ⟨fun _ => empty, fun n h => (unsound h).elim, fun n h => (unsound h).elim, fun n m h => (unsound h).elim⟩

theorem idsDistinct_resetWith : IdsDistinct (resetWith pending outside now freeCount) :=
  idsDistinct_of_empty fun n => by rw [resetWith_target]; rfl

end

namespace Keeps

variable (s : State)

theorem toReset (p : List Instr) (o : List Outside) (n : Time) (k : Nat) :
    Keeps s { State.reset with pending := p, outside := o, now := n, freeCount := k } where
  queues _ := queuesOk_resetWith p o n k
  gates _ := gatesAscending_resetWith p o n k
  alerts _ := List.nodup_nil
  checks _ := CheckMem.wf_nil
  extents _ := extentsOrdered_resetWith p o n k
  ids _ := idsDistinct_resetWith p o n k

/-- At the release every target entry is EMPTY still, so the straps name nothing that is taken (R20, R158). -/
theorem release (straps : BitVec 3) (held : s.resetHeld = true) : Keeps s (s.release straps) where
  queues := id
  gates k := ⟨k.waiting, k.served⟩
  alerts := id
  checks := id
  extents := id
  ids k := idsDistinct_of_empty (s := s.release straps) (k.held held)

/-! ## What happens outside -/

/-- An upset of a target entry leaves it damaged, so its identifiers no longer count (R20, R24). -/
theorem targetUpset (n : TargetId) (e : TargetEntry) : Keeps s (s.happen (.targetUpset n e)) := by
  have upset : (s.happen (.targetUpset n e)).target n =
      { e with state := (s.target n).state, parityBad := true, tracker := (s.target n).tracker } := by
    simp only [State.happen, State.target_setTarget, if_true]
  have elsewhere {m : TargetId} (other : m ≠ n) : (s.happen (.targetUpset n e)).target m = s.target m := by
    simp only [State.happen, State.target_setTarget, if_neg other]
  have sound {m : TargetId} (h : Sound (s.happen (.targetUpset n e)) m) : m ≠ n ∧ Sound s m := by
    have other : m ≠ n := by
      rintro rfl
      have good := h.2
      rw [upset] at good
      cases good
    exact ⟨other, by simpa only [Sound, elsewhere other] using h⟩
  refine setTarget s fun k => ⟨fun held m => ?_, fun m h => ?_, fun m h => ?_, fun m l hm hl apart => ?_⟩
  · have empty := k.held held
    by_cases same : m = n
    · subst same
      exact (congrArg TargetEntry.state upset).trans (empty m)
    · exact (congrArg TargetEntry.state (elsewhere same)).trans (empty m)
  · obtain ⟨other, h⟩ := sound h
    exact elsewhere other ▸ k.management m h
  · obtain ⟨other, h⟩ := sound h
    exact elsewhere other ▸ k.own m h
  · obtain ⟨otherM, hm⟩ := sound hm
    obtain ⟨otherL, hl⟩ := sound hl
    exact elsewhere otherM ▸ elsewhere otherL ▸ k.others m l hm hl apart

theorem countRun (p : Port) : Keeps s (s.setPort p (s.port p).countRun) := by
  refine setPort s fun ok => ?_
  unfold PortUnit.countRun
  split
  · exact portOk_counted ok rfl rfl ok.received
  · exact ok

theorem happen (o : Outside) : Keeps s (s.happen o) := by
  cases o with
  | routeUpset n e => exact setRoute s n _
  | targetUpset n e => exact targetUpset s n e
  | imageUpset i u => exact setImage s i _
  | slotUpset i r v => exact setImage s i _
  | checkUpset k v => exact ofCheckList s fun wf => CheckMem.write_wf wf _ _
  | cellUpset c x => exact setCell s c _
  | recessiveRun p => exact countRun s p

end Keeps

/-! ## Steps -/

theorem stepLaw_keeps : StepLaw Keeps where
  refl := Keeps.refl
  trans := Keeps.trans
  pending _ _ := Keeps.of_watched rfl
  outside _ _ := Keeps.of_watched rfl
  freeCount _ _ := Keeps.of_watched rfl
  advance := Keeps.advance
  reset := Keeps.toReset
  release s straps held := Keeps.release s straps held
  happen := Keeps.happen
  request s r out := Keeps.takeRequest s fun u p same => Keeps.carry u p r (same.trans out)
  untagged := Keeps.requestWithoutTag
  unknown := Keeps.unknownRequest
  reply := Keeps.replyEnqueue
  alert := Keeps.alertMove
  arrival s p frame := (Keeps.arrival s p frame).trans (Keeps.trunkTakes _)
  receptionError := Keeps.receptionError
  attemptStart := Keeps.attemptStart
  transmissionSuccess := Keeps.transmissionSuccess
  arbitrationLost := Keeps.unmarked
  transmissionError s p := (Keeps.transmissionError s p).trans (Keeps.trunkTakes _)
  recoveryComplete := Keeps.recoveryComplete
  pendingExpiry := Keeps.pendingExpiry
  gapExpiry s f := (Keeps.gapExpiry s f).trans (Keeps.trunkTakes _)
  windowExpiry := Keeps.windowExpiry
  flowSliceComplete s := (Keeps.flowSliceComplete s).trans (Keeps.trunkTakes _)
  imageSliceComplete := Keeps.imageSliceComplete
  sampleTime := Keeps.sampleTime
  conversionComplete s raw := (Keeps.conversionComplete s raw).trans (Keeps.trunkTakes _)

/-- Between steps no frame is offered: an event that offers one ends with the frame joined or dropped (R162). -/
theorem stepLaw_offers : StepLaw fun s s' => s.offers = [] → s'.offers = [] where
  refl _ := id
  trans a b := b ∘ a
  pending _ _ := id
  outside _ _ := id
  freeCount _ _ := id
  advance _ _ := id
  reset _ _ _ _ _ _ := rfl
  release _ _ _ := id
  happen s o := by cases o <;> exact id
  request s r _ h := s.takeRequest_offers r _ h
  untagged s h := by
    unfold State.requestWithoutTag
    split
    · exact h
    · split <;> exact h
  unknown s h := by
    unfold State.unknownRequest
    split
    · exact h
    · split
      · unfold State.reply
        split <;> exact h
      · exact h
  reply s h := s.replyEnqueue_offers.trans h
  alert s h := s.alertMove_offers.trans h
  arrival s p frame _ := State.trunkTakes_offers _
  receptionError s p h := (s.receptionError_offers p).trans h
  attemptStart s p h := (s.attemptStart_offers p).trans h
  transmissionSuccess s p h := (s.transmissionSuccess_offers p).trans h
  arbitrationLost _ _ := id
  transmissionError s p _ := State.trunkTakes_offers _
  recoveryComplete s p h := (s.recoveryComplete_offers p).trans h
  pendingExpiry s f h := s.pendingExpiry_offers f h
  gapExpiry s f _ := State.trunkTakes_offers _
  windowExpiry s h := s.windowExpiry_offers.trans h
  flowSliceComplete s _ := State.trunkTakes_offers _
  imageSliceComplete s h := s.imageSliceComplete_offers.trans h
  sampleTime s h := s.sampleTime_offers.trans h
  conversionComplete s raw _ := State.trunkTakes_offers _

/-- Settles O55, by the law of every step: the queues and the gate requests are kept by each operation, and each event that
offers a frame ends by joining or dropping it. -/
theorem queuesKept : Obligations.QueuesKept := by
  unfold Obligations.QueuesKept
  exact ⟨fun s s' ok h => (stepLaw_keeps.step h).queues ok, fun s s' ok h => (stepLaw_keeps.step h).gates ok,
    fun s s' ok h => stepLaw_offers.step h ok⟩

/-- Settles O56, by the law of every step: an alert joins under a new key or in the place of its key's alert, the check list
keeps its form under every write, and a new extent comes from a fit. -/
theorem alertKeysCheckListAndExtentsKept : Obligations.AlertKeysCheckListAndExtentsKept := by
  unfold Obligations.AlertKeysCheckListAndExtentsKept
  exact ⟨fun s s' ok h => (stepLaw_keeps.step h).alerts ok, fun s s' ok h => (stepLaw_keeps.step h).checks ok,
    fun s s' ok h => (stepLaw_keeps.step h).extents ok⟩

/-- Settles O57, by the law of every step: a target entry is written only when it duplicates no identifier, an upset leaves its
entry damaged, and the straps change only while every entry is EMPTY. -/
theorem idsKept : Obligations.IdsKept := by
  unfold Obligations.IdsKept
  exact fun s s' ok h => (stepLaw_keeps.step h).ids ok

end Sys2Proof.Proofs
end

section
/-! A flow's context under what the part does to it: what keeps the rules of a flow (R38 to R66, R72, R99 to R101). -/

namespace Sys2Proof.Proofs
open Sys2Proof.Machine

/-! ## What the rules of a flow look at -/

/-- The target and the parameters of a flow, which stand from its binding to its release (R42, R43). -/
def boundTo (c : FlowCtx) : Option (TargetId × FlowParams) := c.binding.map fun b => (b.target, b.params)

/-- What the rules of a flow look at. -/
structure Shape where
  state : FlowState
  bound : Option (TargetId × FlowParams)
  opened : Bool
  pending : Option FlowState
  record : Option ParcelRecord
  held : Option CellId
  fifo : List CellId
  holds : HoldCauses
  failed : Bool

/-- That part of a context. -/
def shape (c : FlowCtx) : Shape :=
  ⟨c.state, boundTo c, c.openRegion.isSome, c.pendingReq.map fun p => p.kind.state, c.record, c.held, c.fifo, c.holds,
    c.condition.isSome⟩

theorem boundTo_isSome (c : FlowCtx) : (boundTo c).isSome = c.binding.isSome := Option.isSome_map

theorem boundTo_eq_none_iff (c : FlowCtx) : boundTo c = none ↔ c.binding = none := Option.map_eq_none_iff

theorem target_of_boundTo {c c' : FlowCtx} (h : boundTo c' = boundTo c) : c'.target = c.target := by
  have view (x : FlowCtx) : x.target = (boundTo x).map Prod.fst := by
    unfold FlowCtx.target boundTo
    rw [Option.map_map]
    rfl
  rw [view, view, h]

theorem params_of_boundTo {c c' : FlowCtx} (h : boundTo c' = boundTo c) : c'.params = c.params := by
  have view (x : FlowCtx) : x.params = ((boundTo x).map Prod.snd).getD ⟨0, 0, 0, 0, 0, 0, 0⟩ := by
    unfold FlowCtx.params boundTo
    cases x.binding <;> rfl
  rw [view, view, h]

/-- Two contexts of one shape keep the same rules. -/
theorem flowOk_of_shape {c c' : FlowCtx} (h : shape c' = shape c) (ok : FlowOk c) : FlowOk c' := by
  injection h with state bound opened pending record held fifo holds failed
  have isSome : c'.binding.isSome = c.binding.isSome := by rw [← boundTo_isSome, ← boundTo_isSome, bound]
  have isPending : c'.pendingReq.isSome = c.pendingReq.isSome := by
    have view := congrArg Option.isSome pending
    simpa only [Option.isSome_map] using view
  refine ⟨?_, ?_, ?_, ?_, ?_, ?_, ?_, ?_, ?_, ?_, ?_, ?_⟩
  · rw [state, isSome]
    exact ok.bound
  · rw [state, ← boundTo_eq_none_iff, bound, boundTo_eq_none_iff]
    exact ok.unbound
  · intro p hp
    rw [hp] at pending
    obtain ⟨q, hq, same⟩ := Option.map_eq_some_iff.mp pending.symm
    rw [state, ← ok.pendingNamesState q hq]
    exact same.symm
  · rw [state, isPending]
    exact ok.requestStateHasPending
  · rw [state, opened]
    exact ok.openRegion
  · have none_iff : c'.pendingReq = none ↔ c.pendingReq = none := by
      rw [← Option.isNone_iff_eq_none, ← Option.isNone_iff_eq_none, ← Option.not_isSome, ← Option.not_isSome, isPending]
    rw [state, record, none_iff]
    exact ok.inspected
  · rw [state, record]
    exact ok.gated
  · rw [record, held]
    exact ok.held
  · rw [record, held]
    exact ok.gatedHeld
  · rw [record, fifo]
    exact ok.cells
  · rw [state, holds]
    exact ok.noHolds
  · rw [state, failed]
    exact ok.condition

/-! ## Records that hold no cell -/

/-- A record that holds no cell: none, of a parcel that passes, or of one that is refused (R72, R99). -/
def Light : Option ParcelRecord → Prop
  | some (.inspected _) => False
  | some (.gated _) => False
  | some (.passing _ _) => True
  | some .refused => True
  | none => True

theorem light_not_inspected {r : Option ParcelRecord} (h : Light r) (p : Inspected) : r ≠ some (.inspected p) := by
  rintro rfl
  exact h

theorem light_not_gated {r : Option ParcelRecord} (h : Light r) (g : Gated) : r ≠ some (.gated g) := by
  rintro rfl
  exact h

theorem light_recordAfterRefusal (frame : CanFrame) : Light (recordAfterRefusal frame) := by
  unfold recordAfterRefusal
  split <;> trivial

theorem light_recordAfterForward (frame : CanFrame) : Light (recordAfterForward frame) := by
  unfold recordAfterForward
  split <;> trivial

theorem light_recordAfterEnd (b : Bool) : Light (recordAfterEnd b) := by
  cases b <;> trivial

section
variable {c : FlowCtx} (ok : FlowOk c)
include ok

/-- A flow whose record holds no cell holds none (R100). -/
theorem light_holds_none (light : Light c.record) : c.held = none ∧ c.fifo = [] := by
  constructor
  · by_contra held
    obtain ⟨r, record, ⟨p, rfl⟩ | ⟨g, rfl⟩⟩ := ok.held (Option.isSome_iff_ne_none.mpr held)
    · exact light_not_inspected light p record
    · exact light_not_gated light g record
  · by_contra some
    obtain ⟨p, record⟩ := ok.cells some
    exact light_not_inspected light p record

/-- Only an inspected parcel has cells to fold (R86). -/
theorem gated_fifo_nil {g : Gated} (record : c.record = some (.gated g)) : c.fifo = [] := by
  by_contra some
  obtain ⟨p, inspected⟩ := ok.cells some
  cases record.symm.trans inspected

/-- A flow that is neither LOADING nor IDLE has no cells (R40, R100). -/
theorem light_of_state (loading : c.state ≠ .loading) (idle : c.state ≠ .idle) : Light c.record := by
  cases h : c.record with
  | none => trivial
  | some r =>
    cases r with
    | inspected p => exact loading (ok.inspected p h).1
    | gated g => exact idle (ok.gated g h)
    | passing d k => trivial
    | refused => trivial

theorem openRegion_none (loading : c.state ≠ .loading) (closing : c.state ≠ .closing) : c.openRegion = none := by
  by_contra some
  obtain h | h := ok.openRegion.mp (Option.isSome_iff_ne_none.mpr some)
  · exact loading h
  · exact closing h

/-! ## Contexts after a change -/

/-- Every cell is given up and the record holds none (R101). -/
theorem flowOk_dropped {r : Option ParcelRecord} (light : Light r) :
    FlowOk { c with fifo := [], held := none, record := r } where
  bound := ok.bound
  unbound := ok.unbound
  pendingNamesState := ok.pendingNamesState
  requestStateHasPending := ok.requestStateHasPending
  openRegion := ok.openRegion
  inspected p h := (light_not_inspected light p h).elim
  gated g h := (light_not_gated light g h).elim
  held h := by cases h
  gatedHeld g h := (light_not_gated light g h).elim
  cells h := (h rfl).elim
  noHolds := ok.noHolds
  condition := ok.condition

/-- One record that holds no cell takes the place of another. -/
theorem flowOk_light {r : Option ParcelRecord} (old : Light c.record) (light : Light r) :
    FlowOk { c with record := r } := by
  obtain ⟨held, fifo⟩ := light_holds_none ok old
  have dropped := flowOk_dropped ok light
  rwa [← held, ← fifo] at dropped

/-- Entry to FAILED (R63). -/
theorem flowOk_failed (working : c.state.atWork = true) (k : Condition) (pending : Option PendingReq) :
    FlowOk (({ c with pendingReq := pending, fifo := [], held := none } : FlowCtx).failed k) where
  bound _ := ok.bound fun free => by simp only [free, FlowState.atWork, Bool.false_eq_true] at working
  unbound h := by cases h
  pendingNamesState p h := by cases h
  requestStateHasPending h := by
    simp only [FlowCtx.failed, requestStates, List.mem_cons, reduceCtorEq, List.not_mem_nil, or_self] at h
  openRegion := by simp only [FlowCtx.failed, Option.isSome_none, Bool.false_eq_true, reduceCtorEq, or_self]
  inspected p h := by cases h
  gated g h := by cases h
  held h := by cases h
  gatedHeld g h := by cases h
  cells h := (h rfl).elim
  noHolds _ := rfl
  condition := by simp only [FlowCtx.failed, Option.isSome_some]

/-- A pending request that is answered or expires leaves the flow IDLE (R50 to R55). -/
theorem flowOk_idle (asked : c.state ∈ requestStates) :
    FlowOk { c with pendingReq := none, openRegion := none, state := .idle } := by
  have apart : c.state ≠ .free ∧ c.state ≠ .loading ∧ c.state ≠ .idle ∧ c.state ≠ .failed ∧ c.state.atWork = true := by
    revert asked
    cases c.state <;> simp [requestStates, FlowState.atWork]
  obtain ⟨free, loading, idle, failed, working⟩ := apart
  have light := light_of_state ok loading idle
  obtain ⟨held, fifo⟩ := light_holds_none ok light
  refine ⟨fun _ => ok.bound free, fun h => ?_, fun p h => ?_, fun h => ?_, ?_, fun p h => ?_, fun g h => ?_, ok.held,
    ok.gatedHeld, ok.cells, fun h => ?_, ?_⟩
  · cases h
  · cases h
  · simp only [requestStates, List.mem_cons, reduceCtorEq, List.not_mem_nil, or_self] at h
  · simp only [Option.isSome_none, Bool.false_eq_true, reduceCtorEq, or_self]
  · exact (light_not_inspected light p h).elim
  · rfl
  · simp only [FlowState.atWork, Bool.true_eq_false] at h
  · rw [ok.condition]
    simp only [failed, reduceCtorEq]

/-- A positive answer to OPEN starts the region (R52). -/
theorem flowOk_loading (opening : c.state = .opening) (o : OpenRegion) :
    FlowOk { c with pendingReq := none, openRegion := some o, state := .loading } := by
  have light := light_of_state ok (by rw [opening]; decide) (by rw [opening]; decide)
  have bound := ok.bound (by rw [opening]; decide)
  refine ⟨fun _ => bound, fun h => ?_, fun p h => ?_, fun h => ?_, ?_, fun p h => ?_, fun g h => ?_, ok.held,
    ok.gatedHeld, ok.cells, fun h => ?_, ?_⟩
  · cases h
  · cases h
  · simp only [requestStates, List.mem_cons, reduceCtorEq, List.not_mem_nil, or_self] at h
  · simp only [Option.isSome_some, true_or]
  · exact (light_not_inspected light p h).elim
  · exact (light_not_gated light g h).elim
  · simp only [FlowState.atWork, Bool.true_eq_false] at h
  · rw [ok.condition, opening]
    simp only [reduceCtorEq]

/-- A positive answer to ACTIVATE ends the flow (R65). -/
theorem flowOk_done (activating : c.state = .activating) :
    FlowOk { c with pendingReq := none, holds := HoldCauses.empty, state := .done } := by
  have light := light_of_state ok (by rw [activating]; decide) (by rw [activating]; decide)
  have bound := ok.bound (by rw [activating]; decide)
  have region := openRegion_none ok (by rw [activating]; decide) (by rw [activating]; decide)
  refine ⟨fun _ => bound, fun h => ?_, fun p h => ?_, fun h => ?_, ?_, fun p h => ?_, fun g h => ?_, ok.held,
    ok.gatedHeld, ok.cells, fun _ => rfl, ?_⟩
  · cases h
  · cases h
  · simp only [requestStates, List.mem_cons, reduceCtorEq, List.not_mem_nil, or_self] at h
  · simp only [region, Option.isSome_none, Bool.false_eq_true, reduceCtorEq, or_self]
  · exact (light_not_inspected light p h).elim
  · exact (light_not_gated light g h).elim
  · rw [ok.condition, activating]
    simp only [reduceCtorEq]

/-- A pending BLOCK that is answered or expires (R53). -/
theorem flowOk_unpending (loading : c.state = .loading) : FlowOk { c with pendingReq := none } where
  bound := ok.bound
  unbound := ok.unbound
  pendingNamesState p h := by cases h
  requestStateHasPending h := by
    simp only [loading, requestStates, List.mem_cons, reduceCtorEq, List.not_mem_nil, or_self] at h
  openRegion := ok.openRegion
  inspected p h := ⟨loading, rfl⟩
  gated := ok.gated
  held := ok.held
  gatedHeld := ok.gatedHeld
  cells := ok.cells
  noHolds := ok.noHolds
  condition := ok.condition

/-- The requests a flow can send on from its state (R47). -/
def Begins (k : FlowState) (p : PendingKind) : Prop :=
  (k = .idle ∧ (p.state = .erasing ∨ p.state = .opening ∨ p.state = .activating))
    ∨ k = .loading ∧ p.state ∈ [FlowState.loading, .closing, .abandoning]

omit ok in
/-- A request that keeps the open region is no ABANDON (R47, R55). -/
theorem keepsOpen_iff (k : PendingKind) : k.keepsOpen = true ↔ k.state ≠ .abandoning := by
  cases k <;> simp [PendingKind.keepsOpen, PendingKind.state]

/-- A request that is sent on becomes pending, and its record holds no cell (R47, R83). -/
theorem flowOk_pending {k : PendingKind} (begins : Begins c.state k) (deadline : Time) {r : Option ParcelRecord}
    (light : Light r) :
    FlowOk { c with
      pendingReq := some ⟨k, deadline⟩, state := k.state, openRegion := if k.keepsOpen then c.openRegion else none,
      fifo := [], held := none, record := r } := by
  have states : c.state ≠ .free ∧ c.state ≠ .failed ∧ k.state ≠ .free ∧ k.state ≠ .failed ∧ k.state.atWork = true := by
    obtain ⟨idle, rest⟩ | ⟨loading, rest⟩ := begins
    · rw [idle]
      obtain h | h | h := rest <;> rw [h] <;> decide
    · rw [loading]
      revert rest
      cases k.state <;> simp [FlowState.atWork]
  obtain ⟨free, failed, free', failed', working⟩ := states
  refine ⟨fun _ => ok.bound free, fun h => (free' h).elim, fun p h => ?_, fun _ => rfl, ?_,
    fun p h => (light_not_inspected light p h).elim, fun g h => (light_not_gated light g h).elim, fun h => ?_,
    fun g h => (light_not_gated light g h).elim, fun h => (h rfl).elim, fun h => ?_, ?_⟩
  · obtain rfl := Option.some.inj h
    rfl
  · dsimp only
    obtain ⟨idle, rest⟩ | ⟨loading, rest⟩ := begins
    · have region := openRegion_none ok (by rw [idle]; decide) (by rw [idle]; decide)
      rw [region, ite_self]
      obtain h | h | h := rest <;> rw [h] <;> simp
    · have region : c.openRegion.isSome = true := ok.openRegion.mpr (Or.inl loading)
      by_cases keeps : k.keepsOpen = true
      · rw [if_pos keeps, region]
        have other := (keepsOpen_iff k).mp keeps
        simp only [List.mem_cons, other, List.not_mem_nil, or_false] at rest
        simpa using rest
      · have abandon : k.state = .abandoning := not_not.mp fun h => keeps ((keepsOpen_iff k).mpr h)
        rw [if_neg keeps, abandon]
        simp
  · cases h
  · rw [working] at h
    cases h
  · rw [ok.condition]
    simp only [failed, failed']

/-- A frame of an inspected parcel: its cell joins, and the final one is held (R86). -/
theorem flowOk_inspected (loading : c.state = .loading) (settled : c.pendingReq = none) (p : Inspected)
    (fifo : List CellId) (held : Option CellId) : FlowOk { c with fifo := fifo, held := held, record := some (.inspected p) }
    where
  bound := ok.bound
  unbound := ok.unbound
  pendingNamesState := ok.pendingNamesState
  requestStateHasPending := ok.requestStateHasPending
  openRegion := ok.openRegion
  inspected _ _ := ⟨loading, settled⟩
  gated g h := by cases h
  held _ := ⟨_, rfl, Or.inl ⟨p, rfl⟩⟩
  gatedHeld g h := by cases h
  cells _ := ⟨p, rfl⟩
  noHolds := ok.noHolds
  condition := ok.condition

/-- A first frame of ERASE or ACTIVATE waits in a cell (R93). -/
theorem flowOk_gated (idle : c.state = .idle) (g : Gated) (x : CellId) :
    FlowOk { c with fifo := [], held := some x, record := some (.gated g) } where
  bound := ok.bound
  unbound := ok.unbound
  pendingNamesState := ok.pendingNamesState
  requestStateHasPending := ok.requestStateHasPending
  openRegion := ok.openRegion
  inspected p h := by cases h
  gated _ _ := idle
  held _ := ⟨_, rfl, Or.inr ⟨g, rfl⟩⟩
  gatedHeld _ _ := rfl
  cells h := (h rfl).elim
  noHolds := ok.noHolds
  condition := ok.condition

/-- Hold causes stand at flows at work alone (R60). -/
theorem flowOk_holds {h : HoldCauses} (idle : c.state.atWork = false → h = HoldCauses.empty) :
    FlowOk { c with holds := h } :=
  { ok with noHolds := idle }

end

/-- A flow that is bound starts without work (R42). -/
theorem flowOk_boundContext (b : Binding) (critical : Bool) : FlowOk (boundContext b critical) where
  bound _ := rfl
  unbound h := by cases h
  pendingNamesState p h := by cases h
  requestStateHasPending h := by
    simp only [boundContext, requestStates, List.mem_cons, reduceCtorEq, List.not_mem_nil, or_self] at h
  openRegion := by
    simp only [boundContext, FlowCtx.reset, Option.isSome_none, Bool.false_eq_true, reduceCtorEq, or_self]
  inspected p h := by cases h
  gated g h := by cases h
  held h := by cases h
  gatedHeld g h := by cases h
  cells h := (h rfl).elim
  noHolds h := by cases h
  condition := by simp only [boundContext, FlowCtx.reset, Option.isSome_none, Bool.false_eq_true, reduceCtorEq]

/-- A free flow has nothing (R38). -/
theorem flowOk_reset : FlowOk FlowCtx.reset where
  bound h := (h rfl).elim
  unbound _ := rfl
  pendingNamesState p h := by cases h
  requestStateHasPending h := by
    simp only [FlowCtx.reset, requestStates, List.mem_cons, reduceCtorEq, List.not_mem_nil, or_self] at h
  openRegion := by simp only [FlowCtx.reset, Option.isSome_none, Bool.false_eq_true, reduceCtorEq, or_self]
  inspected p h := by cases h
  gated g h := by cases h
  held h := by cases h
  gatedHeld g h := by cases h
  cells h := (h rfl).elim
  noHolds _ := rfl
  condition := by simp only [FlowCtx.reset, Option.isSome_none, Bool.false_eq_true, reduceCtorEq]

end Sys2Proof.Proofs
end

section
/-! The flows, their cells and the check engine's slice under one change: what keeps the rules of the flows and of the cell
pool (R38, R99 to R101, R106, R113). -/

namespace Sys2Proof.Proofs
open Sys2Proof.Machine

/-! ## What these rules look at -/

/-- What the rules of the flows and of the pool look at. -/
structure Work where
  flows : Vector FlowCtx 16
  cells : Vector Cell 512
  engine : Option Slice
  window : WindowState

/-- That part of a state. -/
def work (s : State) : Work := ⟨s.flows, s.cells, s.engine, s.window.state⟩

section
variable {s u : State} (h : work s = work u)
include h

theorem flow_of_work (f : FlowId) : s.flow f = u.flow f := by
  rw [State.flow_eq, State.flow_eq]
  exact congrArg (fun w => w.flows.get f) h

theorem cell_of_work (c : CellId) : s.cell c = u.cell c := congrArg (fun w => w.cells.get c) h

theorem engine_of_work : s.engine = u.engine := congrArg Work.engine h

theorem window_of_work : s.window.state = u.window.state := congrArg Work.window h

end

/-! ## Operations that leave it -/

section
variable (s : State)

@[simp] theorem advance_work (t : Time) : work (s.advance t) = work s := rfl
@[simp] theorem setPort_work (p : Port) (u : PortUnit) : work (s.setPort p u) = work s := rfl
@[simp] theorem enqueue_work (p : Port) (k : QueueClass) (x : CanFrame) : work (s.enqueue p k x) = work s := rfl
@[simp] theorem toSegment_work (n : TargetId) (x : CanFrame) : work (s.toSegment n x) = work s := rfl
@[simp] theorem offerTrunk_work (k : QueueClass) (x : CanFrame) : work (s.offerTrunk k x) = work s := rfl
@[simp] theorem refuse_work (n : TargetId) (c : Byte) (r : Reason) (d : Byte) : work (s.refuse n c r d) = work s := rfl
@[simp] theorem mapSupply_work (g : Supply → Supply) : work (s.mapSupply g) = work s := rfl
@[simp] theorem startConversion_work : work s.startConversion = work s := rfl
@[simp] theorem withdrawGate_work (f : FlowId) : work (s.withdrawGate f) = work s := rfl
@[simp] theorem setTarget_work (n : TargetId) (e : TargetEntry) : work (s.setTarget n e) = work s := rfl
@[simp] theorem setTracker_work (n : TargetId) (k : Tracker) : work (s.setTracker n k) = work s := rfl
@[simp] theorem setRoute_work (n : RouteId) (e : RouteEntry) : work (s.setRoute n e) = work s := rfl
@[simp] theorem setImage_work (i : ImageId) (r : ImageRecord) : work (s.setImage i r) = work s := rfl
@[simp] theorem mapReferences_work (i : ImageId) (g : Nat → Nat) : work (s.mapReferences i g) = work s := rfl
@[simp] theorem queueAlert_work (a : Alert) : work (s.queueAlert a) = work s := rfl
@[simp] theorem removeAlert_work (k : AlertKey) : work (s.removeAlert k) = work s := rfl

@[simp] theorem offersComeFirst_work : work s.offersComeFirst = work s := by
  obtain ⟨l, h⟩ := s.offersComeFirst_eq
  rw [h]
  rfl

@[simp] theorem offer_work (p : Port) (k : QueueClass) (x : CanFrame) : work (s.offer p k x) = work s := by
  unfold State.offer
  split <;> rfl

@[simp] theorem raiseFault_work (k : FaultFlag) : work (s.raiseFault k) = work s := by
  unfold State.raiseFault
  split <;> rfl

@[simp] theorem raiseIf_work (b : Bool) (k : FaultFlag) : work (s.raiseIf b k) = work s := by
  unfold State.raiseIf
  split
  · exact raiseFault_work s k
  · rfl

@[simp] theorem gateRequest_work (f : FlowId) : work (s.gateRequest f) = work s := by
  unfold State.gateRequest
  dsimp only
  split <;> rfl

@[simp] theorem flowAlert_work (f : FlowId) (h : HoldCauses) : work (s.flowAlert f h) = work s := by
  unfold State.flowAlert
  split <;> rfl

@[simp] theorem progressAlert_work (f : FlowId) : work (s.progressAlert f) = work s := by
  unfold State.progressAlert
  dsimp only
  split <;> rfl

@[simp] theorem clearInFlight_work (l : List QueuedFrame) : work (s.clearInFlight l) = work s := by
  unfold State.clearInFlight
  split <;> rfl

end

/-! ## The rules of the pool and of the engine -/

/-- The rules of the pool that the engine has no part in (R98, R100). -/
structure PoolCore (s : State) : Prop where
  inUse : ∀ c, (s.cell c).inUse = true ↔ ∃ f, c ∈ (s.flow f).heldCells
  once : ∀ f, (s.flow f).heldCells.Nodup
  alone : ∀ f g c, c ∈ (s.flow f).heldCells → c ∈ (s.flow g).heldCells → f = g
  quota : ∀ f, (s.flow f).heldCells.length ≤ (s.flow f).params.cellQuota

/-- The slice that runs is of the head of its flow's cells, and the engine rests only with nothing to fold (R106, R107). -/
structure EngineOk (s : State) : Prop where
  slice : ∀ f c x, s.engine = some ⟨.flow f c x, false⟩ → (s.flow f).fifo.head? = some c
  idle : s.engine = none → ∀ f, (s.flow f).fifo = []

theorem poolOk_iff (s : State) : PoolOk s ↔ PoolCore s ∧ EngineOk s :=
  ⟨fun h => ⟨⟨h.inUse, h.once, h.alone, h.quota⟩, h.slice, h.idle⟩,
    fun ⟨c, e⟩ => ⟨c.inUse, c.once, c.alone, c.quota, e.slice, e.idle⟩⟩

/-- What a change to the flows keeps besides the engine's rules. -/
structure KeepsPool (s s' : State) : Prop where
  flows : FlowsOk s → FlowsOk s'
  bound : FlowsOk s → TargetsBoundOnce s → TargetsBoundOnce s'
  core : FlowsOk s → PoolCore s → PoolCore s'

/-- What every operation between two slices keeps. -/
structure KeepsFlows (s s' : State) : Prop extends KeepsPool s s' where
  engine : FlowsOk s → EngineOk s → EngineOk s'

namespace KeepsPool

theorem refl (s : State) : KeepsPool s s := ⟨id, fun _ => id, fun _ => id⟩

theorem trans {s u v : State} (a : KeepsPool s u) (b : KeepsPool u v) : KeepsPool s v :=
  ⟨b.flows ∘ a.flows, fun ok h => b.bound (a.flows ok) (a.bound ok h), fun ok h => b.core (a.flows ok) (a.core ok h)⟩

theorem of_work {s s' : State} (h : work s' = work s) : KeepsPool s s' where
  flows ok := by
    refine ⟨fun f => ?_, fun closed f => ?_⟩
    · rw [flow_of_work h]
      exact ok.each f
    · rw [flow_of_work h]
      exact ok.closed ((window_of_work h).symm.trans closed) f
  bound _ once f g n := by
    simp only [flow_of_work h]
    exact once f g n
  core _ pool := by
    refine ⟨fun c => ?_, fun f => ?_, fun f g c => ?_, fun f => ?_⟩
    · simp only [cell_of_work h, flow_of_work h]
      exact pool.inUse c
    · rw [flow_of_work h]
      exact pool.once f
    · rw [flow_of_work h, flow_of_work h]
      exact pool.alone f g c
    · rw [flow_of_work h]
      exact pool.quota f

end KeepsPool

namespace KeepsFlows

theorem refl (s : State) : KeepsFlows s s := ⟨.refl s, fun _ => id⟩

theorem trans {s u v : State} (a : KeepsFlows s u) (b : KeepsFlows u v) : KeepsFlows s v :=
  ⟨a.toKeepsPool.trans b.toKeepsPool, fun ok h => b.engine (a.flows ok) (a.engine ok h)⟩

theorem of_work {s s' : State} (h : work s' = work s) : KeepsFlows s s' where
  toKeepsPool := .of_work h
  engine _ engine := by
    refine ⟨fun f c x running => ?_, fun resting f => ?_⟩
    · rw [flow_of_work h]
      exact engine.slice f c x ((engine_of_work h).symm.trans running)
    · rw [flow_of_work h]
      exact engine.idle ((engine_of_work h).symm.trans resting) f

/-- The rules of the flows may be used to show that a change keeps them. -/
theorem of_ok {s s' : State} (h : FlowsOk s → KeepsFlows s s') : KeepsFlows s s' :=
  ⟨⟨fun ok => (h ok).flows ok, fun ok => (h ok).bound ok, fun ok => (h ok).core ok⟩, fun ok => (h ok).engine ok⟩

end KeepsFlows

theorem KeepsPool.of_ok {s s' : State} (h : FlowsOk s → KeepsPool s s') : KeepsPool s s' :=
  ⟨fun ok => (h ok).flows ok, fun ok => (h ok).bound ok, fun ok => (h ok).core ok⟩

/-! ## One flow's context changes -/

/-- A context that keeps the rules in the place of another: it stays bound as it is and does not start to work. -/
structure Follows (c c' : FlowCtx) : Prop where
  ok : FlowOk c → FlowOk c'
  free : c'.state = .free ↔ c.state = .free
  bound : boundTo c' = boundTo c
  work : c'.state.atWork = true → c.state.atWork = true

theorem Follows.of_shape {c c' : FlowCtx} (h : shape c' = shape c) : Follows c c' := by
  have state : c'.state = c.state := congrArg Shape.state h
  exact ⟨flowOk_of_shape h, by rw [state], congrArg Shape.bound h, fun working => state ▸ working⟩

/-- The later state differs from the earlier one, of the flows, in the context of one flow. -/
structure Changes (s s' : State) (f : FlowId) (c' : FlowCtx) : Prop where
  flow : ∀ g, s'.flow g = if g = f then c' else s.flow g
  window : s'.window.state = s.window.state

namespace Changes

variable {s s' : State} {f : FlowId} {c' : FlowCtx} (h : Changes s s' f c')
include h

theorem here : s'.flow f = c' := by rw [h.flow, if_pos rfl]

theorem elsewhere {g : FlowId} (other : g ≠ f) : s'.flow g = s.flow g := by rw [h.flow, if_neg other]

theorem flowsOk (ok : FlowsOk s) (new : Follows (s.flow f) c') : FlowsOk s' := by
  refine ⟨fun g => ?_, fun closed g => ?_⟩
  · by_cases same : g = f
    · subst same
      exact h.here ▸ new.ok (ok.each g)
    · exact h.elsewhere same ▸ ok.each g
  · have old := ok.closed (h.window.symm.trans closed) g
    by_cases same : g = f
    · subst same
      rw [h.here]
      exact Bool.eq_false_of_not_eq_true fun working => Bool.false_ne_true (old.symm.trans (new.work working))
    · rwa [h.elsewhere same]

theorem boundOnce (once : TargetsBoundOnce s) (new : Follows (s.flow f) c') : TargetsBoundOnce s' := by
  have free (g : FlowId) : (s'.flow g).state = .free ↔ (s.flow g).state = .free := by
    by_cases same : g = f
    · subst same
      rw [h.here]
      exact new.free
    · rw [h.elsewhere same]
  have target (g : FlowId) : (s'.flow g).target = (s.flow g).target := by
    by_cases same : g = f
    · subst same
      rw [h.here]
      exact target_of_boundTo new.bound
    · rw [h.elsewhere same]
  intro g k n
  rw [ne_eq, ne_eq, free, free, target, target]
  exact once g k n

/-- One flow's cells change: those it newly holds come from the free ones, and those it gives up are free (R99 to R101). -/
theorem core (pool : PoolCore s) (nodup : (s.flow f).heldCells.Nodup → c'.heldCells.Nodup)
    (quota : (s.flow f).heldCells.length ≤ (s.flow f).params.cellQuota → c'.heldCells.length ≤ c'.params.cellQuota)
    (fresh : ∀ d ∈ c'.heldCells, d ∈ (s.flow f).heldCells ∨ (s.cell d).inUse = false)
    (inUse : ∀ d, (s'.cell d).inUse = true ↔ d ∈ c'.heldCells ∨ d ∉ (s.flow f).heldCells ∧ (s.cell d).inUse = true) :
    PoolCore s' := by
  have apart {g : FlowId} (other : g ≠ f) {d : CellId} (new : d ∈ c'.heldCells) : d ∉ (s.flow g).heldCells := by
    intro held
    obtain old | unused := fresh d new
    · exact other (pool.alone g f d held old)
    · exact Bool.false_ne_true (unused.symm.trans ((pool.inUse d).mpr ⟨g, held⟩))
  refine ⟨fun d => ?_, fun g => ?_, fun g k d => ?_, fun g => ?_⟩
  · rw [inUse]
    constructor
    · rintro (new | ⟨other, old⟩)
      · exact ⟨f, h.here ▸ new⟩
      · obtain ⟨g, held⟩ := (pool.inUse d).mp old
        have apart : g ≠ f := by
          rintro rfl
          exact other held
        exact ⟨g, (h.elsewhere apart).symm ▸ held⟩
    · rintro ⟨g, held⟩
      by_cases same : g = f
      · subst same
        exact Or.inl (h.here ▸ held)
      · rw [h.elsewhere same] at held
        exact Or.inr ⟨fun old => same (pool.alone g f d held old), (pool.inUse d).mpr ⟨g, held⟩⟩
  · by_cases same : g = f
    · subst same
      exact h.here ▸ nodup (pool.once g)
    · exact h.elsewhere same ▸ pool.once g
  · by_cases sameG : g = f <;> by_cases sameK : k = f
    · exact fun _ _ => sameG.trans sameK.symm
    · subst sameG
      rw [h.here, h.elsewhere sameK]
      exact fun new held => (apart sameK new held).elim
    · subst sameK
      rw [h.here, h.elsewhere sameG]
      exact fun held new => (apart sameG new held).elim
    · rw [h.elsewhere sameG, h.elsewhere sameK]
      exact pool.alone g k d
  · by_cases same : g = f
    · subst same
      rw [h.here]
      exact quota (pool.quota g)
    · exact h.elsewhere same ▸ pool.quota g

end Changes

/-! ## The cells of a flow -/

theorem heldCells_of_none {c : FlowCtx} (h : c.held = none) : c.heldCells = c.fifo := by
  unfold FlowCtx.heldCells
  rw [h]

theorem heldCells_congr {c c' : FlowCtx} (fifo : c'.fifo = c.fifo) (held : c'.held = c.held) :
    c'.heldCells = c.heldCells := by
  unfold FlowCtx.heldCells
  rw [fifo, held]

section
variable {s s' : State} {f : FlowId} {c' : FlowCtx}

/-- No flow's cells to fold change, nor the slice that runs. -/
theorem engineOk_of_fifo (engine : s'.engine = s.engine) (fifo : ∀ g, (s'.flow g).fifo = (s.flow g).fifo)
    (old : EngineOk s) : EngineOk s' := by
  refine ⟨fun g c x running => ?_, fun resting g => ?_⟩
  · rw [fifo]
    exact old.slice g c x (engine.symm.trans running)
  · rw [fifo]
    exact old.idle (engine.symm.trans resting) g

/-- A flow's context changes, and its cells stay with it. -/
theorem KeepsPool.sits (h : work s' = work (s.setFlow f c')) (new : FlowOk (s.flow f) → Follows (s.flow f) c')
    (fifo : c'.fifo = (s.flow f).fifo) (held : c'.held = (s.flow f).held) : KeepsPool s s' := by
  have change : Changes s s' f c' := by
    have window : s'.window.state = (s.setFlow f c').window.state := window_of_work h
    refine ⟨fun g => ?_, window⟩
    rw [flow_of_work h, State.flow_setFlow]
  have cells : c'.heldCells = (s.flow f).heldCells := heldCells_congr fifo held
  refine ⟨fun ok => change.flowsOk ok (new (ok.each f)), fun ok once => change.boundOnce once (new (ok.each f)),
    fun ok pool => change.core pool (cells ▸ id) ?_ (fun d old => Or.inl (cells ▸ old)) fun d => ?_⟩
  · rw [cells, params_of_boundTo (new (ok.each f)).bound]
    exact id
  rw [cell_of_work h, cells, State.setFlow_cell]
  have held : d ∈ (s.flow f).heldCells → (s.cell d).inUse = true := fun mem => (pool.inUse d).mpr ⟨f, mem⟩
  tauto

theorem KeepsFlows.sits (h : work s' = work (s.setFlow f c')) (new : FlowOk (s.flow f) → Follows (s.flow f) c')
    (fifo : c'.fifo = (s.flow f).fifo) (held : c'.held = (s.flow f).held) : KeepsFlows s s' where
  toKeepsPool := .sits h new fifo held
  engine _ := engineOk_of_fifo ((engine_of_work h).trans (s.setFlow_engine f c')) fun g => by
    rw [flow_of_work h, State.flow_setFlow]
    split
    · next eq => exact eq ▸ fifo
    · rfl

/-- A flow gives up all its cells, and they are free (R101). -/
structure Drops (s s' : State) (f : FlowId) (c' : FlowCtx) : Prop extends Changes s s' f c' where
  cell : ∀ d, s'.cell d = if d ∈ (s.flow f).heldCells then { s.cell d with inUse := false } else s.cell d
  fifo : c'.fifo = []
  held : c'.held = none

theorem Drops.core (h : Drops s s' f c') (pool : PoolCore s) : PoolCore s' := by
  have none : c'.heldCells = [] := (heldCells_of_none h.held).trans h.fifo
  refine h.toChanges.core pool (fun _ => none ▸ List.nodup_nil) (fun _ => none ▸ Nat.zero_le _) (fun d mem => ?_)
    fun d => ?_
  · simp only [none, List.not_mem_nil] at mem
  · rw [none, h.cell]
    split
    · next held => simp only [Bool.false_eq_true, List.not_mem_nil, held, not_true_eq_false, false_and, or_self]
    · next held => simp only [List.not_mem_nil, held, not_false_eq_true, true_and, false_or]

/-- The slice of a flow that gives up its cells is abandoned (R101, R113). -/
theorem Drops.engineOk (h : Drops s s' f c') (engine : s'.engine = (s.abandonFlowSlice f).engine) (old : EngineOk s) :
    EngineOk s' := by
  rw [State.abandonFlowSlice_eq] at engine
  refine ⟨fun g c x running => ?_, fun resting g => ?_⟩
  · rw [engine] at running
    obtain ⟨slice, before, after⟩ := Option.map_eq_some_iff.mp running
    obtain ⟨job, gone⟩ := slice
    cases job with
    | image i b n e => cases after
    | flow k d y =>
      dsimp only at after
      split at after
      · cases after
      · next other =>
        cases after
        rw [h.elsewhere other]
        exact old.slice g c x before
  · rw [engine] at resting
    by_cases same : g = f
    · rw [same, h.here, h.fifo]
    · rw [h.elsewhere same]
      exact old.idle (Option.map_eq_none_iff.mp resting) g

theorem KeepsPool.drops (h : Drops s s' f c') (new : FlowOk (s.flow f) → Follows (s.flow f) c') : KeepsPool s s' where
  flows ok := h.flowsOk ok (new (ok.each f))
  bound ok once := h.boundOnce once (new (ok.each f))
  core _ := h.core

theorem KeepsFlows.drops (h : Drops s s' f c') (new : FlowOk (s.flow f) → Follows (s.flow f) c')
    (engine : s'.engine = (s.abandonFlowSlice f).engine) : KeepsFlows s s' where
  toKeepsPool := .drops h new
  engine _ := h.engineOk engine

/-- A flow without cells to fold has no slice that runs (R106). -/
theorem KeepsFlows.drops_unfolded (h : Drops s s' f c') (new : FlowOk (s.flow f) → Follows (s.flow f) c')
    (engine : s'.engine = s.engine) (unfolded : FlowOk (s.flow f) → (s.flow f).fifo = []) : KeepsFlows s s' where
  toKeepsPool := .drops h new
  engine ok := engineOk_of_fifo engine fun g => by
    by_cases same : g = f
    · rw [same, h.here, h.fifo, unfolded (ok.each f)]
    · rw [h.elsewhere same]

/-- A flow takes a free cell within its quota (R99). -/
theorem KeepsPool.takes {x : CellId} (change : Changes s s' f c')
    (new : FlowOk (s.flow f) → Follows (s.flow f) c') (unused : (s.cell x).inUse = false)
    (room : (s.flow f).heldCells.length < (s.flow f).params.cellQuota)
    (cells : FlowOk (s.flow f) → c'.heldCells = (s.flow f).heldCells ++ [x])
    (cell : ∀ d, (s'.cell d).inUse = if d = x then true else (s.cell d).inUse) : KeepsPool s s' := by
  refine ⟨fun ok => change.flowsOk ok (new (ok.each f)), fun ok once => change.boundOnce once (new (ok.each f)),
    fun ok pool => ?_⟩
  have cells := cells (ok.each f)
  have apart : x ∉ (s.flow f).heldCells :=
    fun mem => Bool.false_ne_true (unused.symm.trans ((pool.inUse x).mpr ⟨f, mem⟩))
  refine change.core pool (fun nodup => ?_) (fun _ => ?_) (fun d mem => ?_) fun d => ?_
  · rw [cells, List.nodup_append]
    refine ⟨nodup, List.nodup_singleton x, ?_⟩
    rintro d mem y hy rfl
    exact apart (List.mem_singleton.mp hy ▸ mem)
  · rw [cells, params_of_boundTo (new (ok.each f)).bound, List.length_append, List.length_singleton]
    exact room
  · rw [cells, List.mem_append, List.mem_singleton] at mem
    exact mem.imp id fun eq : d = x => eq ▸ unused
  · rw [cells, cell, List.mem_append, List.mem_singleton]
    have held : d ∈ (s.flow f).heldCells → (s.cell d).inUse = true := fun mem => (pool.inUse d).mpr ⟨f, mem⟩
    by_cases same : d = x
    · simp only [same, if_true, or_true, true_or]
    · simp only [same, if_false, or_false]
      tauto

end

end Sys2Proof.Proofs
end

section
/-! The flow controller keeps the rules of the flows and of the cell pool (R44 to R66, R101). -/

namespace Sys2Proof.Proofs
open Sys2Proof.Machine

/-! ## One context written twice -/

section
variable (s : State) (f : FlowId)

theorem setFlow_setFlow (c d : FlowCtx) : (s.setFlow f c).setFlow f d = s.setFlow f d := by
  unfold State.setFlow
  rw [Vector.set_set]

theorem setFlow_self : s.setFlow f (s.flow f) = s := by
  unfold State.setFlow State.flow
  rw [Vector.get_eq_getElem, Vector.set_getElem_self]

theorem mapFlow_mapFlow (g h : FlowCtx → FlowCtx) :
    (s.mapFlow f g).mapFlow f h = s.mapFlow f fun c => h (g c) := by
  unfold State.mapFlow
  rw [setFlow_setFlow, State.flow_setFlow, if_pos rfl]

end

namespace KeepsFlows

variable (s : State) (f : FlowId)

/-! ## Changes of one context -/

/-- A change of a context whose cells stay with it. -/
theorem mapFlow {g : FlowCtx → FlowCtx} (new : FlowOk (s.flow f) → Follows (s.flow f) (g (s.flow f)))
    (fifo : (g (s.flow f)).fifo = (s.flow f).fifo) (held : (g (s.flow f)).held = (s.flow f).held) :
    KeepsFlows s (s.mapFlow f g) :=
  sits rfl new fifo held

/-- A change that the rules do not look at. -/
theorem mapFlow_shape {g : FlowCtx → FlowCtx} (h : shape (g (s.flow f)) = shape (s.flow f)) :
    KeepsFlows s (s.mapFlow f g) :=
  mapFlow s f (fun _ => .of_shape h) (congrArg Shape.fifo h) (congrArg Shape.held h)

theorem setVerdict (v : Verdict) : KeepsFlows s (s.setVerdict f v) := mapFlow_shape s f rfl

/-- One record that holds no cell takes the place of another. -/
theorem setRecord {r : Option ParcelRecord} (old : FlowOk (s.flow f) → Light (s.flow f).record) (new : Light r) :
    KeepsFlows s (s.setRecord f r) :=
  mapFlow s f (fun ok => ⟨fun _ => flowOk_light ok (old ok) new, Iff.rfl, rfl, id⟩) rfl rfl

/-- The record of an inspected parcel is brought up to date. -/
theorem setInspected {p : Inspected} (p' : Inspected) (old : (s.flow f).record = some (.inspected p)) :
    KeepsFlows s (s.setRecord f (some (.inspected p'))) :=
  mapFlow s f
    (fun ok => ⟨fun _ => flowOk_inspected ok (ok.inspected p old).1 (ok.inspected p old).2 p' _ _, Iff.rfl, rfl, id⟩)
    rfl rfl

end KeepsFlows

/-! ## Cells given up -/

section
variable {s s' : State} {f : FlowId} {a g : FlowCtx → FlowCtx}

/-- A context after its cells are given up, between two changes that leave the cells alone. -/
def emptied (a g : FlowCtx → FlowCtx) (c : FlowCtx) : FlowCtx := g { a c with fifo := [], held := none }

/-- Changes to a context that leave its cells alone. -/
structure CellsStay (g : FlowCtx → FlowCtx) : Prop where
  fifo : ∀ c, (g c).fifo = c.fifo
  held : ∀ c, (g c).held = c.held

theorem cellsStay_id : CellsStay id := ⟨fun _ => rfl, fun _ => rfl⟩

theorem abandonFlowSlice_work (s : State) (f : FlowId) :
    work (s.abandonFlowSlice f) = { work s with engine := (s.abandonFlowSlice f).engine } := by
  rw [State.abandonFlowSlice_eq]
  rfl

/-- Freeing the cells of a flow between two changes of its context (R101). -/
theorem drops_mapped (before : CellsStay a) (after : CellsStay g) {e : Option Slice}
    (h : work s' = { work (((s.mapFlow f a).freeFlowCells f).mapFlow f g) with engine := e }) :
    Drops s s' f (emptied a g (s.flow f)) := by
  have free : Drops s (((s.mapFlow f a).freeFlowCells f).mapFlow f g) f (emptied a g (s.flow f)) := by
    refine ⟨⟨fun k => ?_, ?_⟩, fun d => ?_, after.fifo _, after.held _⟩
    · rw [State.flow_mapFlow, State.freeFlowCells_flow, State.freeFlowCells_flow, if_pos rfl, State.flow_mapFlow,
        State.flow_mapFlow, if_pos rfl]
      split <;> rfl
    · exact congrArg (fun k : Kept => k.window.state) ((s.mapFlow f a).freeFlowCells_kept f)
    · have cells : (a (s.flow f)).heldCells = (s.flow f).heldCells :=
        heldCells_congr (before.fifo _) (before.held _)
      rw [State.mapFlow_cell, State.freeFlowCells_cell, State.flow_mapFlow, if_pos rfl, cells, State.mapFlow_cell]
  refine ⟨⟨fun k => ?_, ?_⟩, fun d => ?_, free.fifo, free.held⟩
  · rw [← free.flow k]
    exact congrArg (fun w => w.flows.get k) h
  · rw [← free.window]
    exact congrArg Work.window h
  · rw [← free.cell d]
    exact congrArg (fun w => w.cells.get d) h

/-- A flow gives up its cells, and the engine may go on with the slice that ends. -/
theorem KeepsPool.dropsCells (before : CellsStay a) (after : CellsStay g)
    (h : work s' = work (((s.mapFlow f a).freeFlowCells f).mapFlow f g))
    (new : FlowOk (s.flow f) → Follows (s.flow f) (emptied a g (s.flow f))) : KeepsPool s s' :=
  .drops (drops_mapped before after (e := s'.engine) (by rw [engine_of_work h]; exact h)) new

/-- A flow without cells to fold gives up its cell (R101). -/
theorem KeepsFlows.dropsUnfolded (before : CellsStay a) (after : CellsStay g)
    (h : work s' = work (((s.mapFlow f a).freeFlowCells f).mapFlow f g))
    (new : FlowOk (s.flow f) → Follows (s.flow f) (emptied a g (s.flow f)))
    (unfolded : FlowOk (s.flow f) → (s.flow f).fifo = []) : KeepsFlows s s' := by
  refine .drops_unfolded (drops_mapped before after (e := s'.engine) (by rw [engine_of_work h]; exact h)) new ?_ unfolded
  rw [engine_of_work h, State.mapFlow_engine, State.freeFlowCells_engine, State.mapFlow_engine]

/-- A flow gives up its cells and its slice (R101, R113). -/
theorem KeepsFlows.dropsWork (before : CellsStay a) (after : CellsStay g)
    (h : work s' = work (((s.mapFlow f a).dropParcelWork f).mapFlow f g))
    (new : FlowOk (s.flow f) → Follows (s.flow f) (emptied a g (s.flow f))) : KeepsFlows s s' := by
  have abandoned := abandonFlowSlice_work ((s.mapFlow f a).freeFlowCells f) f
  have mapped : work s' = { work (((s.mapFlow f a).freeFlowCells f).mapFlow f g) with
      engine := (((s.mapFlow f a).freeFlowCells f).abandonFlowSlice f).engine } := by
    rw [h, State.dropParcelWork, State.abandonFlowSlice_eq]
    rfl
  refine .drops (drops_mapped before after mapped) new ?_
  rw [engine_of_work h, State.mapFlow_engine, State.dropParcelWork, State.abandonFlowSlice_eq, State.abandonFlowSlice_eq,
    State.freeFlowCells_engine, State.mapFlow_engine]

end

namespace KeepsFlows

variable (s : State) (f : FlowId)

/-- A change of the context before is none. -/
theorem mapFlow_id : s.mapFlow f id = s := setFlow_self s f

/-- The work of a parcel is dropped, and its record holds no cell after (R101). -/
theorem dropsParcel {s' : State} {g : FlowCtx → FlowCtx} {r : Option ParcelRecord} (light : Light r)
    (h : work s' = work ((s.dropParcelWork f).mapFlow f g)) (shaped : ∀ c, shape (g c) = { shape c with record := r }) :
    KeepsFlows s s' := by
  have stay : CellsStay g := ⟨fun c => congrArg Shape.fifo (shaped c), fun c => congrArg Shape.held (shaped c)⟩
  refine dropsWork cellsStay_id stay (by rw [mapFlow_id]; exact h) fun ok => ?_
  have new := flowOk_dropped ok light
  have same : shape (emptied id g (s.flow f)) = shape { s.flow f with fifo := [], held := none, record := r } :=
    shaped _
  have state : (emptied id g (s.flow f)).state = (s.flow f).state := congrArg Shape.state same
  exact ⟨fun _ => flowOk_of_shape same new, by rw [state], congrArg Shape.bound same, fun work => state ▸ work⟩

/-- The one cell of a gated request is given up with it (R96, R101). -/
theorem dropGated {gate : Gated} (gated : (s.flow f).record = some (.gated gate)) : KeepsFlows s (s.dropGated f) := by
  refine dropsUnfolded (a := id) (g := fun c => { c with record := none }) cellsStay_id ⟨fun _ => rfl, fun _ => rfl⟩
    (by rw [mapFlow_id]; rfl) (fun ok => ?_) fun ok => gated_fifo_nil ok gated
  exact ⟨fun _ => flowOk_dropped ok (r := none) trivial, Iff.rfl, rfl, id⟩

/-! ## Entry to FAILED and the ends of a parcel -/

/-- A flow at work enters FAILED, whatever became of its pending request (R63). -/
theorem failFlow_pending (pending : Option PendingReq) (k : Condition) (working : (s.flow f).state.atWork = true) :
    KeepsFlows s ((s.mapFlow f fun c => { c with pendingReq := pending }).failFlow f k) := by
  refine dropsWork (f := f) (a := fun c => { c with pendingReq := pending }) (g := (·.failed k)) ⟨fun _ => rfl, fun _ => rfl⟩
    ⟨fun _ => rfl, fun _ => rfl⟩ ?_ fun ok => ?_
  · unfold State.failFlow
    dsimp only
    rw [if_pos (by rw [State.flow_mapFlow, if_pos rfl]; exact working), flowAlert_work]
    rfl
  · have free : (s.flow f).state ≠ .free := by
      intro free
      simp only [free, FlowState.atWork, Bool.false_eq_true] at working
    exact ⟨fun _ => flowOk_failed ok working k pending, by simp only [emptied, FlowCtx.failed, free, reduceCtorEq], rfl,
      fun _ => working⟩

theorem failFlow (k : Condition) : KeepsFlows s (s.failFlow f k) := by
  by_cases working : (s.flow f).state.atWork = true
  · have failed := failFlow_pending s f (s.flow f).pendingReq k working
    rwa [show (s.mapFlow f fun c => { c with pendingReq := (s.flow f).pendingReq }) = s from setFlow_self s f] at failed
  · have idle : s.failFlow f k = s := by
      unfold State.failFlow
      exact if_neg working
    rw [idle]
    exact refl s

theorem countFailure : KeepsFlows s (s.countFailure f) := by
  have counted : KeepsFlows s (s.mapFlow f fun c => { c with failures := c.failures + 1 }) := mapFlow_shape s f rfl
  unfold State.countFailure
  dsimp only
  split
  · exact counted.trans ((of_work (offersComeFirst_work _)).trans (failFlow _ f _))
  · exact counted

/-- A block that ends without its final frame sent on is refused, and its work is dropped (R89, R101). -/
theorem refusesParcel (n : TargetId) (code : Byte) (reason : Reason) (detail : Byte) (b : Bool) :
    KeepsFlows s ((((s.dropParcelWork f).refuse n code reason detail).setVerdict f .broken).setRecord f
      (recordAfterEnd b)) := by
  refine dropsParcel s f (light_recordAfterEnd b) (g := fun c => { c with
    lastVerdict := some .broken, record := recordAfterEnd b }) ?_ fun c => rfl
  unfold State.setVerdict State.setRecord
  rw [mapFlow_mapFlow]
  rfl

theorem endBroken (n : TargetId) (b : Bool) : KeepsFlows s (s.endBroken f n b) :=
  (refusesParcel s f n _ _ _ b).trans (countFailure _ f)

theorem endSilently {r : Option ParcelRecord} (light : Light r) : KeepsFlows s (s.endSilently f r) := by
  refine dropsParcel s f light (g := fun c => { c with lastVerdict := some .broken, record := r }) ?_ fun c => rfl
  unfold State.endSilently State.setVerdict State.setRecord
  rw [mapFlow_mapFlow]

theorem tableFault (n : TargetId) (k : FaultFlag) (code : UpdateCode) : KeepsFlows s (s.tableFault f n k code) := by
  unfold State.tableFault
  dsimp only
  refine (of_work (raiseFault_work s k)).trans (.trans ?_ (failFlow _ f _))
  split
  · exact (of_work (refuse_work _ n _ _ _)).trans (setVerdict _ f _)
  · exact of_work (refuse_work _ n _ _ _)

/-! ## Answers to pending requests and their expiry (R48 to R56) -/

theorem countProgress : KeepsFlows s (s.countProgress f) := by
  unfold State.countProgress
  dsimp only
  split
  · exact refl s
  · have counted : KeepsFlows s (s.mapFlow f fun c => { c with sinceProgress := c.sinceProgress + 1 }) :=
      mapFlow_shape s f rfl
    split
    · exact counted.trans ((of_work (progressAlert_work _ f)).trans (mapFlow_shape _ f rfl))
    · exact counted

theorem acceptBlock (q : Byte) (n : Nat) : KeepsFlows s (s.acceptBlock f q n) :=
  (mapFlow_shape s f rfl).trans (countProgress _ f)

/-- A request that is pending in a state of its own is answered or expires, and the flow becomes IDLE (R50 to R55). -/
theorem becomesIdle {s' : State} {g : FlowCtx → FlowCtx} (asked : (s.flow f).state ∈ requestStates)
    (h : work s' = work (s.mapFlow f g))
    (shaped : ((s.flow f).state ≠ .closing → (s.flow f).openRegion = none) →
      shape (g (s.flow f)) = shape { s.flow f with pendingReq := none, openRegion := none, state := .idle }) :
    KeepsFlows s s' := by
  refine of_ok fun all => ?_
  have ok := all.each f
  have same := shaped fun closing => openRegion_none ok (fun loading => by
    simp only [loading, requestStates, List.mem_cons, reduceCtorEq, List.not_mem_nil, or_self] at asked) closing
  have state : (g (s.flow f)).state = .idle := congrArg Shape.state same
  have apart : (s.flow f).state ≠ .free ∧ (s.flow f).state.atWork = true := by
    revert asked
    cases (s.flow f).state <;> simp [requestStates, FlowState.atWork]
  refine sits h (fun ok => ⟨fun _ => flowOk_of_shape same (flowOk_idle ok asked), ?_, congrArg Shape.bound same,
    fun _ => apart.2⟩) (congrArg Shape.fifo same) (congrArg Shape.held same)
  simp only [state, apart.1, reduceCtorEq]

/-- The region states of a binding are not looked at. -/
theorem boundTo_regions (c : FlowCtx) (r : Nat) (k : RegionState) :
    boundTo { c with binding := c.binding.map fun b => { b with regions := b.regions.set r k } } = boundTo c := by
  unfold boundTo
  cases c.binding <;> rfl

/-- A request that leaves the flow's region state written and the flow IDLE. -/
theorem idleAfterRegion {kind : FlowState} (r : Nat) (k : RegionState) (state : (s.flow f).state = kind)
    (asks : kind ∈ requestStates ∧ kind ≠ .closing) :
    KeepsFlows s (((s.clearPending f).setRegion f r k).setFlowState f .idle) := by
  obtain ⟨asked, other⟩ := state ▸ asks
  refine becomesIdle s f asked (g := fun c => { c with
    pendingReq := none, binding := c.binding.map fun b => { b with regions := b.regions.set r k }, state := .idle }) ?_
    fun region => ?_
  · unfold State.clearPending State.setRegion State.setFlowState
    rw [mapFlow_mapFlow, mapFlow_mapFlow]
  · simp only [shape, boundTo, region other]
    cases (s.flow f).binding <;> rfl

theorem closedAfterRegion (r : Nat) (k : RegionState) (closing : (s.flow f).state = .closing) :
    KeepsFlows s (((s.clearPending f).setRegion f r k).closeToIdle f) := by
  have asked : (s.flow f).state ∈ requestStates := closing ▸ (by decide)
  refine becomesIdle s f asked (g := fun c => { c with
    pendingReq := none, binding := c.binding.map fun b => { b with regions := b.regions.set r k }, openRegion := none,
    state := .idle }) ?_ fun region => ?_
  · unfold State.clearPending State.setRegion State.closeToIdle
    rw [mapFlow_mapFlow, mapFlow_mapFlow]
  · simp only [shape, boundTo]
    cases (s.flow f).binding <;> rfl

theorem idleAgain {kind : FlowState} (state : (s.flow f).state = kind)
    (asks : kind ∈ requestStates ∧ kind ≠ .closing) : KeepsFlows s ((s.clearPending f).setFlowState f .idle) := by
  obtain ⟨asked, other⟩ := state ▸ asks
  refine becomesIdle s f asked (g := fun c => { c with pendingReq := none, state := .idle }) ?_ fun region => ?_
  · unfold State.clearPending State.setFlowState
    rw [mapFlow_mapFlow]
  · simp only [shape, boundTo, region other]

/-- A pending BLOCK is answered or expires (R53). -/
theorem clearPending (loading : (s.flow f).state = .loading) : KeepsFlows s (s.clearPending f) :=
  mapFlow s f (fun _ => ⟨fun ok => flowOk_unpending ok loading, Iff.rfl, rfl, id⟩) rfl rfl

theorem opened (o : OpenRegion) (opening : (s.flow f).state = .opening) :
    KeepsFlows s ((s.clearPending f).opened f o) := by
  have written : (s.clearPending f).opened f o = s.mapFlow f fun c => { c with
      pendingReq := none, binding := c.binding.map fun b => { b with regions := b.regions.set o.region .opened },
      openRegion := some o, expectedSeq := 1, lastAccepted := none, acceptedBlocks := 0, acceptedBytes := 0,
      sinceProgress := 0, acc := accPreset, state := .loading } := by
    unfold State.clearPending State.opened State.setRegion
    rw [mapFlow_mapFlow, mapFlow_mapFlow]
  rw [written]
  refine mapFlow s f (fun ok => ⟨fun _ => ?_, ?_, boundTo_regions _ _ _, fun _ => ?_⟩) rfl rfl
  · refine flowOk_of_shape ?_ (flowOk_loading ok opening o)
    simp only [shape, boundTo]
    cases (s.flow f).binding <;> rfl
  · simp only [opening, reduceCtorEq]
  · rw [opening]
    rfl

theorem finish (activating : (s.flow f).state = .activating) : KeepsFlows s ((s.clearPending f).finish f) := by
  have written : (s.clearPending f).mapFlow f (fun c => { c with holds := HoldCauses.empty, state := .done }) =
      s.mapFlow f fun c => { c with pendingReq := none, holds := HoldCauses.empty, state := .done } := by
    unfold State.clearPending
    rw [mapFlow_mapFlow]
  have ended : KeepsFlows s (s.mapFlow f fun c => { c with
      pendingReq := none, holds := HoldCauses.empty, state := .done }) := by
    refine mapFlow s f (fun ok => ⟨fun _ => flowOk_done ok activating, ?_, rfl, fun _ => ?_⟩) rfl rfl
    · simp only [activating, reduceCtorEq]
    · rw [activating]
      rfl
  unfold State.finish
  dsimp only
  rw [written]
  exact ended.trans (of_work (flowAlert_work _ f _))

theorem onPositive (k : PendingKind) (state : (s.flow f).state = k.state) :
    KeepsFlows s ((s.clearPending f).onPositive f k) := by
  cases k with
  | erase r => exact idleAfterRegion s f (kind := .erasing) r _ state (by decide)
  | open_ o => exact opened s f o state
  | block q n again =>
    unfold State.onPositive
    dsimp only
    split
    · exact clearPending s f state
    · exact (clearPending s f state).trans (acceptBlock _ f q n)
  | close r => exact closedAfterRegion s f r _ state
  | abandon r => exact idleAfterRegion s f (kind := .abandoning) r _ state (by decide)
  | activate => exact finish s f state

theorem onRefusal (k : PendingKind) (state : (s.flow f).state = k.state) :
    KeepsFlows s ((s.clearPending f).onRefusal f k) := by
  cases k with
  | erase r => exact idleAfterRegion s f (kind := .erasing) r _ state (by decide)
  | open_ o => exact idleAgain s f (kind := .opening) state (by decide)
  | block q n again => exact (clearPending s f state).trans (countFailure _ f)
  | close r => exact closedAfterRegion s f r _ state
  | abandon r => exact idleAfterRegion s f (kind := .abandoning) r _ state (by decide)
  | activate => exact idleAgain s f (kind := .activating) state (by decide)

theorem onExpiry (k : PendingKind) (state : (s.flow f).state = k.state) :
    KeepsFlows s ((s.clearPending f).onExpiry f k) := by
  cases k with
  | erase r => exact idleAfterRegion s f (kind := .erasing) r _ state (by decide)
  | open_ o => exact idleAgain s f (kind := .opening) state (by decide)
  | block q n again => exact (clearPending s f state).trans (countFailure _ f)
  | close r => exact closedAfterRegion s f r _ state
  | abandon r => exact idleAfterRegion s f (kind := .abandoning) r _ state (by decide)
  | activate => exact failFlow_pending s f none _ (by rw [state]; rfl)

theorem pendingExpiry : KeepsFlows s (s.pendingExpiry f) := by
  unfold State.pendingExpiry
  split
  · next p pending =>
    split
    · exact of_ok fun ok => onExpiry s f p.kind ((ok.each f).pendingNamesState p pending).symm
    · exact refl s
  · exact refl s

theorem matchResponse {p : PendingReq} (pending : (s.flow f).pendingReq = some p) (r : Response) :
    KeepsFlows s (s.matchResponse f p r) := by
  refine of_ok fun ok => ?_
  have state := ((ok.each f).pendingNamesState p pending).symm
  cases r with
  | positive c e => exact onPositive s f p.kind state
  | refusal c reason =>
    refine (mapFlow_shape s f rfl).trans (onRefusal _ f p.kind ?_)
    rw [State.flow_mapFlow, if_pos rfl]
    exact state
  | wait c =>
    refine mapFlow_shape s f (g := fun c => { c with
      pendingReq := some { p with deadline := s.now + ms c.params.waitExtension } }) ?_
    simp only [shape, pending, boundTo, Option.map_some]

theorem lateResponse (r : Response) : KeepsFlows s (s.lateResponse f r) := by
  unfold State.lateResponse
  split
  · exact mapFlow_shape s f rfl
  · exact refl s

theorem takeResponse (r : Response) : KeepsFlows s (s.takeResponse f r) := by
  unfold State.takeResponse
  split
  · next p pending =>
    split
    · exact matchResponse s f pending r
    · exact lateResponse s f r
  · exact lateResponse s f r

theorem refusalEndsRecord : KeepsFlows s (s.refusalEndsRecord f) := by
  unfold State.refusalEndsRecord
  split
  · split
    · exact refl s
    · exact endSilently s f trivial
  · next d k record => exact setRecord s f (fun _ => by rw [record]; trivial) trivial
  · exact refl s

theorem targetRefusal (n : TargetId) : KeepsFlows s (s.targetRefusal n) := by
  unfold State.targetRefusal
  dsimp only
  split
  · exact (of_work (setTracker_work s n _)).trans (refusalEndsRecord _ _)
  · exact of_work (setTracker_work s n _)

theorem dialogueResponse (n : TargetId) (frame : CanFrame) : KeepsFlows s (s.dialogueResponse n frame) := by
  unfold State.dialogueResponse
  dsimp only
  refine trans (u := if isWholeRefusal frame then s.targetRefusal n else s) ?_
    (trans ?_ (of_work (offerTrunk_work _ _ frame)))
  · split
    · exact targetRefusal s n
    · exact refl s
  · generalize (if isWholeRefusal frame then s.targetRefusal n else s) = u
    split
    · exact takeResponse u _ _
    · exact refl u

end KeepsFlows

end Sys2Proof.Proofs
end

section
/-! The parcel inspector, the trackers and the classifier keep the rules of the flows and of the cell pool (R68 to R101). -/

namespace Sys2Proof.Proofs
open Sys2Proof.Machine

/-! ## A cell from the pool (R99) -/

/-- A flow is given a free cell within its quota. -/
theorem cellFor_some {s : State} {f : FlowId} {c : CellId} (h : s.cellFor f = some c) :
    (s.flow f).heldCells.length < (s.flow f).params.cellQuota ∧ (s.cell c).inUse = false
      ∧ ∀ d, d < c → (s.cell d).inUse = true := by
  unfold State.cellFor at h
  split at h
  · cases h
  · next room =>
    obtain ⟨unused, lowest⟩ := (State.lowestFree_some s c).mp h
    exact ⟨not_le.mp room, unused, lowest⟩

/-! ## The engine's choice (R107) -/

theorem leastBy_eq_none_iff {α : Type} (rank : α → Nat) (l : List α) : leastBy rank l = none ↔ l = [] := by
  cases l with
  | nil => exact iff_of_true rfl rfl
  | cons a rest =>
    unfold leastBy
    split
    · simp only [reduceCtorEq]
    · split <;> simp only [reduceCtorEq]

/-- The choice is one of those that ask, and none of them comes before it. -/
theorem leastBy_some {α : Type} {rank : α → Nat} {l : List α} {a : α} (h : leastBy rank l = some a) :
    a ∈ l ∧ ∀ b ∈ l, rank a ≤ rank b := by
  induction l generalizing a with
  | nil => cases h
  | cons x rest ih =>
    unfold leastBy at h
    split at h
    · next none =>
      obtain rfl := Option.some.inj h
      rw [(leastBy_eq_none_iff rank rest).mp none]
      exact ⟨List.mem_cons_self, fun b mem => (List.mem_singleton.mp mem) ▸ le_refl _⟩
    · next b some =>
      obtain ⟨mem, least⟩ := ih some
      split at h
      · next before =>
        obtain rfl := Option.some.inj h
        refine ⟨List.mem_cons_of_mem _ mem, fun y hy => ?_⟩
        obtain rfl | later := List.mem_cons.mp hy
        · exact before.le
        · exact least y later
      · next after =>
        obtain rfl := Option.some.inj h
        refine ⟨List.mem_cons_self, fun y hy => ?_⟩
        obtain rfl | later := List.mem_cons.mp hy
        · exact le_refl _
        · exact (not_lt.mp after).trans (least y later)

/-- A flow asks for the engine while it has cells to fold, an image while it is CHECKING (R105). -/
theorem mem_requesters_flow (s : State) (f : FlowId) : Requester.flow f ∈ s.requesters ↔ (s.flow f).fifo ≠ [] := by
  simp only [State.requesters, List.mem_append, List.mem_map, List.mem_filter, mem_allFlows, true_and,
    Requester.flow.injEq, exists_eq_right, Bool.not_eq_true', List.isEmpty_eq_false_iff, reduceCtorEq, and_false,
    exists_false, or_false]

theorem mem_requesters_image (s : State) (i : ImageId) :
    Requester.image i ∈ s.requesters ↔ (s.image i).state = .checking := by
  simp only [State.requesters, List.mem_append, List.mem_map, List.mem_filter, mem_allImages, true_and,
    Requester.image.injEq, exists_eq_right, beq_iff_eq, reduceCtorEq, and_false, exists_false, false_or]

/-- The next slice is of the head of its flow's cells, and none begins only with nothing to fold (R107). -/
theorem engineOk_nextSlice (s : State) : EngineOk s.nextSlice := by
  unfold State.nextSlice
  split
  · next none =>
    have empty := (leastBy_eq_none_iff s.rank s.requesters).mp none
    refine ⟨fun f c x running => ?_, fun _ f => ?_⟩
    · cases running
    · by_contra waiting
      have asks := (mem_requesters_flow s f).mpr waiting
      rw [empty] at asks
      exact List.not_mem_nil asks
  · next r chosen =>
    cases r with
    | flow f =>
      have waiting := (mem_requesters_flow s f).mp (leastBy_some chosen).1
      obtain ⟨c, rest, fifo⟩ := List.exists_cons_of_ne_nil waiting
      have begun : s.beginSlice (.flow f) = { s with engine := some ⟨.flow f c (s.cell c), false⟩ } := by
        show s.beginFlowSlice f = _
        unfold State.beginFlowSlice
        rw [fifo]
      rw [begun]
      refine ⟨fun g d x running => ?_, fun resting => ?_⟩
      · cases running
        show (s.flow f).fifo.head? = _
        rw [fifo]
        rfl
      · cases resting
    | image i =>
      refine ⟨fun g d x running => ?_, fun resting => ?_⟩
      · cases running
      · cases resting

/-- Another slice leaves the flows and the pool. -/
theorem KeepsPool.ofEngine (s : State) (e : Option Slice) : KeepsPool s { s with engine := e } where
  flows ok := ⟨ok.each, ok.closed⟩
  bound _ once := once
  core _ pool := ⟨pool.inUse, pool.once, pool.alone, pool.quota⟩

theorem beginSlice_eq (s : State) (r : Requester) : ∃ e, s.beginSlice r = { s with engine := e } := by
  cases r with
  | flow f =>
    show ∃ e, s.beginFlowSlice f = _
    unfold State.beginFlowSlice
    split
    · exact ⟨none, rfl⟩
    · exact ⟨_, rfl⟩
  | image i => exact ⟨_, rfl⟩

theorem nextSlice_eq (s : State) : ∃ e, s.nextSlice = { s with engine := e } := by
  unfold State.nextSlice
  split
  · exact ⟨none, rfl⟩
  · exact beginSlice_eq s _

theorem wakeEngine_eq (s : State) (r : Requester) : ∃ e, s.wakeEngine r = { s with engine := e } := by
  unfold State.wakeEngine
  split
  · exact beginSlice_eq s r
  · exact ⟨s.engine, rfl⟩

@[simp] theorem wakeEngine_flow (s : State) (r : Requester) (f : FlowId) : (s.wakeEngine r).flow f = s.flow f := by
  obtain ⟨e, woken⟩ := wakeEngine_eq s r
  rw [woken]
  rfl

namespace KeepsFlows

variable (s : State) (f : FlowId) (n : TargetId) (frame : CanFrame)

theorem nextSlice {u : State} (h : KeepsPool s u) : KeepsFlows s u.nextSlice where
  toKeepsPool := by
    obtain ⟨e, next⟩ := nextSlice_eq u
    rw [next]
    exact h.trans (.ofEngine u e)
  engine _ _ := engineOk_nextSlice u

/-! ## First frames (R73 to R85) -/

theorem replaceRecord : KeepsFlows s (s.replaceRecord f) := by
  unfold State.replaceRecord
  split
  · exact endSilently s f trivial
  · next gate record => exact dropGated s f record
  · next d k record => exact setRecord s f (fun _ => by rw [record]; trivial) trivial
  · next record => exact setRecord s f (fun _ => by rw [record]; trivial) trivial
  · exact refl s

section
variable (fresh : (s.flow f).record = none)
include fresh

theorem otherDialogue : KeepsFlows s (s.otherDialogue f n frame) := by
  have light (r : Option ParcelRecord) (h : Light r) : KeepsFlows s (s.setRecord f r) :=
    setRecord s f (fun _ => by rw [fresh]; trivial) h
  unfold State.otherDialogue
  split
  · exact light _ (light_recordAfterRefusal frame)
  · split
    · exact (of_work (toSegment_work s n frame)).trans
        (setRecord _ f (fun _ => by rw [State.toSegment, State.enqueue_flow, fresh]; trivial)
          (light_recordAfterForward frame))
    · exact light _ (light_recordAfterRefusal frame)

theorem refuseFirst (r : Reason) (d : Byte) : KeepsFlows s (s.refuseFirst f n frame r d) := by
  refine (of_work (refuse_work s n _ r d)).trans (setRecord _ f (fun _ => ?_) (light_recordAfterRefusal frame))
  rw [State.refuse, State.offerTrunk_flow, fresh]
  trivial

theorem brokenFirst (code : UpdateCode) : KeepsFlows s (s.brokenFirst f n frame code) := by
  have refused := refuseFirst s f n frame fresh .broken 0x05
  unfold State.brokenFirst
  dsimp only
  split
  · exact refused.trans ((setVerdict _ f _).trans (countFailure _ f))
  · exact refused

theorem earlyVerdict (v : Verdict) : KeepsFlows s (s.earlyVerdict f n frame v) :=
  (refuseFirst s f n frame fresh _ _).trans ((setVerdict _ f v).trans (countFailure _ f))

theorem refuseFatal (r : Reason) (k : Condition) : KeepsFlows s (s.refuseFatal f n frame r k) :=
  (refuseFirst s f n frame fresh r _).trans ((of_work (offersComeFirst_work _)).trans (failFlow _ f k))

theorem forwardRequest (code : UpdateCode) {k : PendingKind} (begins : Begins (s.flow f).state k) :
    KeepsFlows s (s.forwardRequest f n frame code k) := by
  have states : k.state ≠ .free ∧ (s.flow f).state ≠ .free ∧ (s.flow f).state.atWork = true := by
    refine ⟨by cases k <;> simp [PendingKind.state], ?_⟩
    obtain ⟨idle, -⟩ | ⟨loading, -⟩ := begins
    · rw [idle]
      decide
    · rw [loading]
      decide
  obtain ⟨free', free, working⟩ := states
  have sent : KeepsFlows s (((s.toSegment n frame).beginPending f k).setRecord f none) := by
    refine of_ok fun all => ?_
    obtain ⟨held, fifo⟩ := light_holds_none (all.each f) (by rw [fresh]; trivial)
    refine sits (f := f) (c' := { s.flow f with
      pendingReq := some ⟨k, s.now + ms (s.flow f).params.responseTime⟩, state := k.state,
      openRegion := if k.keepsOpen then (s.flow f).openRegion else none, record := none }) ?_ (fun ok => ?_) rfl rfl
    · unfold State.beginPending State.setRecord
      rw [mapFlow_mapFlow]
      rfl
    · have new := flowOk_pending ok begins (s.now + ms (s.flow f).params.responseTime) (r := none) trivial
      rw [← held, ← fifo] at new
      exact ⟨fun _ => new, by simp only [free', free], rfl, fun _ => working⟩
  unfold State.forwardRequest
  split
  · exact tableFault s f n _ code
  · split
    · exact sent
    · exact refuseFirst s f n frame fresh _ _

/-- A first frame that waits for a gate takes a cell (R93). -/
theorem gate (g : Gated) (idle : (s.flow f).state = .idle) : KeepsFlows s (s.gate f n frame g) := by
  unfold State.gate
  split
  · exact refuseFirst s f n frame fresh _ _
  · next c given =>
    obtain ⟨room, unused, -⟩ := cellFor_some given
    refine trans ?_ (of_work (gateRequest_work _ f))
    refine of_ok fun all => ?_
    obtain ⟨held, fifo⟩ := light_holds_none (all.each f) (by rw [fresh]; trivial)
    have change : Changes s ((s.fillCell c ⟨frame.data, none, some ⟨frame.data.length, frame.brs⟩⟩).mapFlow f fun x =>
        { x with held := some c, record := some (.gated g) }) f
        { s.flow f with held := some c, record := some (.gated g) } := by
      refine ⟨fun k => ?_, rfl⟩
      rw [State.flow_mapFlow]
      rfl
    have pool : KeepsPool s ((s.fillCell c ⟨frame.data, none, some ⟨frame.data.length, frame.brs⟩⟩).mapFlow f fun x =>
        { x with held := some c, record := some (.gated g) }) := by
      refine .takes (x := c) change (fun ok => ⟨fun _ => ?_, Iff.rfl, rfl, id⟩) unused room (fun _ => ?_) fun d => ?_
      · have new := flowOk_gated ok idle g c
        rwa [← fifo] at new
      · unfold FlowCtx.heldCells
        rw [held, fifo]
        rfl
      · rw [State.mapFlow_cell, State.cell_fillCell]
        split <;> rfl
    refine ⟨pool, fun _ => engineOk_of_fifo rfl fun k => ?_⟩
    rw [change.flow]
    split
    · next eq => rw [eq]
    · rfl

theorem admitErase (idle : (s.flow f).state = .idle) : KeepsFlows s (s.admitErase f n frame) := by
  unfold State.admitErase
  split
  · exact refuseFirst s f n frame fresh _ _
  · exact tableFault s f n _ _
  · exact refuseFatal s f n frame fresh _ _
  · exact tableFault s f n _ _
  · exact refuseFatal s f n frame fresh _ _
  · split
    · exact refuseFirst s f n frame fresh _ _
    · split
      · exact refuseFirst s f n frame fresh _ _
      · exact gate s f n frame fresh _ idle

theorem admitOpen (idle : (s.flow f).state = .idle) : KeepsFlows s (s.admitOpen f n frame) := by
  unfold State.admitOpen
  split
  · exact refuseFirst s f n frame fresh _ _
  · exact tableFault s f n _ _
  · exact refuseFatal s f n frame fresh _ _
  · exact tableFault s f n _ _
  · exact refuseFatal s f n frame fresh _ _
  · split
    · exact refuseFirst s f n frame fresh _ _
    · split
      · exact refuseFirst s f n frame fresh _ _
      · exact forwardRequest s f n frame fresh _ (Or.inl ⟨idle, Or.inr (Or.inl rfl)⟩)

theorem admitActivate (idle : (s.flow f).state = .idle) : KeepsFlows s (s.admitActivate f n frame) := by
  unfold State.admitActivate
  split
  · exact refuseFirst s f n frame fresh _ _
  · split
    · exact refuseFirst s f n frame fresh _ _
    · exact gate s f n frame fresh _ idle

end

/-! ## Inspected parcels (R84 to R92) -/

/-- A flow that takes the next frame of an inspected parcel (R86). -/
structure Inspecting (c : FlowCtx) : Prop where
  loading : c.state = .loading
  settled : c.pendingReq = none
  open_ : c.held = none

theorem passInspected {p : Inspected} (record : (s.flow f).record = some (.inspected p)) :
    KeepsFlows s (s.passInspected f n frame p) := by
  unfold State.passInspected
  split
  · exact tableFault s f n _ _
  · split
    · exact (of_work (toSegment_work s n frame)).trans (setInspected _ f (p := p) _ record)
    · exact endBroken s f n _

/-- A flow whose cells to fold get one more wakes a resting engine, and leaves a slice that runs (R86, R106). -/
theorem wakes {u : State} {c : CellId} (pool : KeepsPool s u) (same : u.engine = s.engine)
    (fifo : ∀ k, (u.flow k).fifo = if k = f then (s.flow f).fifo ++ [c] else (s.flow k).fifo) :
    KeepsFlows s (u.wakeEngine (.flow f)) := by
  obtain ⟨e, woken⟩ := wakeEngine_eq u (.flow f)
  refine ⟨woken ▸ pool.trans (.ofEngine u e), fun _ engine => ?_⟩
  cases resting : u.engine with
  | none =>
    obtain ⟨d, rest, waiting⟩ := List.exists_cons_of_ne_nil (l := (u.flow f).fifo) (by
      rw [fifo, if_pos rfl]
      exact List.append_ne_nil_of_right_ne_nil _ (List.cons_ne_nil _ _))
    have begun : u.wakeEngine (.flow f) = { u with engine := some ⟨.flow f d (u.cell d), false⟩ } := by
      unfold State.wakeEngine
      rw [resting]
      show u.beginFlowSlice f = _
      unfold State.beginFlowSlice
      rw [waiting]
    rw [begun]
    refine ⟨fun g d' y running => ?_, fun none => ?_⟩
    · cases running
      exact congrArg List.head? waiting
    · cases none
  | some slice =>
    have kept : u.wakeEngine (.flow f) = u := by
      unfold State.wakeEngine
      rw [resting]
    rw [kept]
    refine ⟨fun g d y running => ?_, fun none => ?_⟩
    · have head := engine.slice g d y (same.symm.trans running)
      rw [fifo]
      split
      · next eq =>
        subst eq
        rw [List.head?_append, head]
        rfl
      · exact head
    · cases resting.symm.trans none

/-- The cell of a frame joins those to fold, and the final one is held (R86). -/
theorem joins {c : CellId} {x : CellContent} (p : Inspected) (final : Bool) (inspecting : Inspecting (s.flow f))
    (given : s.cellFor f = some c) :
    KeepsFlows s (((s.fillCell c x).mapFlow f fun y => y.joinCell c p final).wakeEngine (.flow f)) := by
  obtain ⟨loading, settled, open_⟩ := inspecting
  obtain ⟨room, unused, -⟩ := cellFor_some given
  have joined : (s.flow f).joinCell c p final = { s.flow f with
      fifo := (s.flow f).fifo ++ [c], held := if final then some c else none,
      record := some (.inspected (if final then p.finalised else p)) } := by
    unfold FlowCtx.joinCell
    cases final with
    | true => rfl
    | false => simp only [Bool.false_eq_true, if_false, ← open_]
  have change : Changes s ((s.fillCell c x).mapFlow f fun y => y.joinCell c p final) f
      ((s.flow f).joinCell c p final) := by
    refine ⟨fun k => ?_, rfl⟩
    rw [State.flow_mapFlow]
    rfl
  refine wakes s f (.takes (x := c) change (fun ok => ?_) unused room (fun _ => ?_) fun d => ?_) rfl (c := c) fun k => ?_
  · rw [joined]
    exact ⟨fun _ => flowOk_inspected ok loading settled _ _ _, Iff.rfl, rfl, id⟩
  · rw [joined, heldCells_of_none open_]
    unfold FlowCtx.heldCells
    cases final with
    | true => simp only [if_true, List.mem_append, List.mem_singleton, or_true]
    | false => rfl
  · rw [State.mapFlow_cell, State.cell_fillCell]
    split <;> rfl
  · rw [change.flow, joined]
    split <;> rfl

theorem takeInspected (p : Inspected) (span : FoldSpan) (inspecting : Inspecting (s.flow f)) :
    KeepsFlows s (s.takeInspected f n frame p span) := by
  unfold State.takeInspected
  dsimp only
  split
  · have record : KeepsFlows s (s.setRecord f (some (.inspected p))) :=
      mapFlow s f (fun ok => ⟨fun _ => flowOk_inspected ok inspecting.loading inspecting.settled p _ _, Iff.rfl, rfl, id⟩)
        rfl rfl
    exact record.trans (endBroken _ f n _)
  · next c given =>
    have joined := joins s f (x := inspectedContent frame span (decide (p.declared ≤ p.seen))) p
      (decide (p.declared ≤ p.seen)) inspecting given
    split
    · exact joined
    · next more =>
      refine joined.trans (passInspected _ f n frame ?_)
      rw [wakeEngine_flow, State.flow_mapFlow, if_pos rfl, decide_eq_false more]
      rfl

theorem startInspected (k : Nat) (again : Bool) (inspecting : Inspecting (s.flow f)) :
    KeepsFlows s (s.startInspected f n frame k again) := by
  refine (mapFlow_shape s f rfl).trans (takeInspected _ f n frame _ _ ?_)
  rw [State.flow_mapFlow, if_pos rfl]
  exact ⟨inspecting.loading, inspecting.settled, inspecting.open_⟩

theorem admitBlock (fresh : (s.flow f).record = none) (loading : (s.flow f).state = .loading)
    (settled : (s.flow f).pendingReq = none) : KeepsFlows s (s.admitBlock f n frame) := by
  unfold State.admitBlock
  split
  · exact refuseFirst s f n frame fresh _ _
  · split
    · exact earlyVerdict s f n frame fresh _
    · refine of_ok fun all => ?_
      obtain ⟨held, -⟩ := light_holds_none (all.each f) (by rw [fresh]; trivial)
      exact startInspected s f n frame _ _ ⟨loading, settled, held⟩

theorem inspectedCarrier {p : Inspected} (record : (s.flow f).record = some (.inspected p))
    (waiting : (s.flow f).held = none) : KeepsFlows s (s.inspectedCarrier f n frame p) := by
  unfold State.inspectedCarrier
  dsimp only
  split
  · exact endBroken s f n _
  · split
    · exact endBroken s f n _
    · split
      · exact endBroken s f n _
      · refine of_ok fun all => ?_
        obtain ⟨loading, settled⟩ := (all.each f).inspected p record
        exact takeInspected s f n frame _ _ ⟨loading, settled, waiting⟩

/-! ## The admission checks (R76 to R80) -/

/-- The request a flow's state takes (R40, R76). -/
theorem takes_iff (k : FlowState) (c : UpdateCode) : k.takes c = true ↔ TakenIn k c := by
  unfold FlowState.takes TakenIn
  cases k <;> cases c <;> simp

theorem admitSpecific (c : UpdateCode) (fresh : (s.flow f).record = none) (settled : (s.flow f).pendingReq = none)
    (taken : TakenIn (s.flow f).state c) : KeepsFlows s (s.admitSpecific f n frame c) := by
  cases c with
  | erase => exact admitErase s f n frame fresh (by simpa [TakenIn] using taken)
  | open_ => exact admitOpen s f n frame fresh (by simpa [TakenIn] using taken)
  | activate => exact admitActivate s f n frame fresh (by simpa [TakenIn] using taken)
  | block => exact admitBlock s f n frame fresh (by simpa [TakenIn] using taken) settled
  | close =>
    have loading : (s.flow f).state = .loading := by simpa [TakenIn] using taken
    exact forwardRequest s f n frame fresh _ (Or.inr ⟨loading, by simp [PendingKind.state]⟩)
  | abandon =>
    have loading : (s.flow f).state = .loading := by simpa [TakenIn] using taken
    exact forwardRequest s f n frame fresh _ (Or.inr ⟨loading, by simp [PendingKind.state]⟩)

theorem judgeAdmission (c : UpdateCode) (fresh : (s.flow f).record = none) :
    KeepsFlows s (s.judgeAdmission f n frame c) := by
  have refused (r : Reason) (d : Byte) := refuseFirst s f n frame fresh r d
  unfold State.judgeAdmission
  dsimp only
  split
  · exact refused _ _
  · split
    · exact refused _ _
    · split
      · exact refused _ _
      · split
        · exact refused _ _
        · next settled =>
          split
          · exact refused _ _
          · next taken =>
            split
            · exact brokenFirst s f n frame fresh c
            · split
              · exact refused _ _
              · refine admitSpecific s f n frame c fresh (Option.not_isSome_iff_eq_none.mp settled) ?_
                rw [← takes_iff]
                simpa using taken

theorem recordFirst : KeepsFlows s (s.recordFirst f n frame) := by
  have fresh := s.replaceRecord_record f
  unfold State.recordFirst
  dsimp only
  split
  · exact (replaceRecord s f).trans (otherDialogue _ f n frame fresh)
  · exact (replaceRecord s f).trans (judgeAdmission _ f n frame _ fresh)

/-! ## Other frames -/

theorem passingCarrier {d k : Nat} (record : (s.flow f).record = some (.passing d k)) :
    KeepsFlows s (s.passingCarrier f n frame d k) := by
  have light : Light (s.flow f).record := by
    rw [record]
    trivial
  unfold State.passingCarrier
  dsimp only
  split
  · exact setRecord s f (fun _ => light) trivial
  · split
    · refine (of_work (toSegment_work s n frame)).trans (setRecord _ f (fun _ => light) ?_)
      split <;> trivial
    · exact setRecord s f (fun _ => light) trivial

theorem recordCarrier : KeepsFlows s (s.recordCarrier f n frame) := by
  unfold State.recordCarrier
  split
  · next d k record => exact passingCarrier s f n frame record
  · next p record =>
    split
    · exact refl s
    · next waiting => exact inspectedCarrier s f n frame record (Option.not_isSome_iff_eq_none.mp waiting)
  · exact refl s
  · exact refl s
  · exact refl s

theorem recordTakes : KeepsFlows s (s.recordTakes f n frame) := by
  unfold State.recordTakes
  split
  · exact recordFirst s f n frame
  · exact recordFirst s f n frame
  · exact recordCarrier s f n frame
  · exact of_work (offer_work s _ _ _)

theorem gapExpiry : KeepsFlows s (s.gapExpiry f) := by
  unfold State.gapExpiry
  split
  · split
    · exact endBroken s f _ _
    · exact refl s
  · exact refl s

end KeepsFlows

/-! ## Trackers and the classifier (R70, R71, R142 to R145) -/

section
variable (s : State) (frame : CanFrame)

@[simp] theorem trackerFirst_work (n : TargetId) : work (s.trackerFirst n frame) = work s := by
  unfold State.trackerFirst
  split
  · rfl
  · split
    · rfl
    · split <;> rfl

@[simp] theorem trackerCarrier_work (n : TargetId) : work (s.trackerCarrier n frame) = work s := by
  unfold State.trackerCarrier
  split
  · rfl
  · rfl
  · split
    · rfl
    · split <;> rfl

@[simp] theorem trackerTakes_work (n : TargetId) : work (s.trackerTakes n frame) = work s := by
  unfold State.trackerTakes
  split
  · exact trackerFirst_work s frame n
  · exact trackerFirst_work s frame n
  · exact trackerCarrier_work s frame n
  · exact offer_work s _ _ _

@[simp] theorem managementFrame_work (p : Port) : work (s.managementFrame p frame) = work s := by
  unfold State.managementFrame State.joinRequests
  split
  · split <;> rfl
  · rfl

@[simp] theorem offerPlain_work (ports : List Port) : work (s.offerPlain ports frame) = work s := by
  refine foldl_view work (State.offerPlainTo frame) (fun u p => ?_) ports s
  unfold State.offerPlainTo
  split
  · rfl
  · exact offer_work u _ _ _

@[simp] theorem lookup_work (p : Port) (id : CanId) (l : List RouteId) : work (s.lookup p id l).1 = work s := by
  induction l generalizing s with
  | nil => rfl
  | cons n rest ih =>
    unfold State.lookup
    split
    · split
      · rw [ih, raiseFault_work]
        rfl
      · split
        · rfl
        · exact ih s
    · exact ih s

end

namespace KeepsFlows

variable (s : State) (frame : CanFrame)

/-- What every step of a fold keeps, the fold keeps. -/
theorem foldl {α : Type} {act : State → α → State} (h : ∀ u a, KeepsFlows u (act u a)) (l : List α) :
    KeepsFlows s (l.foldl act s) :=
  foldl_keeps (KeepsFlows s) act (fun u a hu => hu.trans (h u a)) l s (refl s)

theorem classifierFault (n : TargetId) : KeepsFlows s (s.classifierFault n) := by
  unfold State.classifierFault
  dsimp only
  split
  · exact (of_work (raiseFault_work s _)).trans (failFlow _ _ _)
  · exact of_work (raiseFault_work s _)

theorem dialogueRequest (n : TargetId) : KeepsFlows s (s.dialogueRequest n frame) := by
  unfold State.dialogueRequest
  split
  · exact recordTakes s _ n frame
  · exact of_work (trackerTakes_work s frame n)

theorem routingFrame (p : Port) : KeepsFlows s (s.routingFrame p frame) := by
  unfold State.routingFrame
  split
  · split
    · split
      · exact dialogueRequest s frame _
      · exact refl s
    · split
      · split
        · exact dialogueResponse s _ frame
        · exact refl s
      · exact of_work ((offerPlain_work _ frame _).trans (lookup_work s p _ _))
  · exact foldl s classifierFault _

theorem classify (p : Port) : KeepsFlows s (s.classify p frame) := by
  unfold State.classify
  split
  · exact of_work (managementFrame_work s frame p)
  · split
    · exact of_work (offerPlain_work s frame _)
    · exact routingFrame s frame p

theorem arrival (p : Port) : KeepsFlows s (s.arrival p frame) := by
  unfold State.arrival
  split
  · exact (of_work (setPort_work s p _)).trans (classify _ frame p)
  · exact refl s

end KeepsFlows

end Sys2Proof.Proofs
end

section
/-! The port events, the check engine, the supply monitor and the window keep the rules of the flows and of the cell pool
(R101, R105 to R113, R120 to R137, R152 to R154). -/

namespace Sys2Proof.Proofs
open Sys2Proof.Machine

/-! ## Port events that no flow takes part in -/

section
variable (s : State) (p : Port)

@[simp] theorem receptionError_work : work (s.receptionError p) = work s := by
  unfold State.receptionError
  split <;> rfl

@[simp] theorem attemptStart_work : work (s.attemptStart p) = work s := by
  unfold State.attemptStart
  split <;> rfl

@[simp] theorem transmissionSuccess_work : work (s.transmissionSuccess p) = work s := by
  unfold State.transmissionSuccess
  split
  · rw [clearInFlight_work, setPort_work]
  · rfl

@[simp] theorem recoveryComplete_work : work (s.recoveryComplete p) = work s := by
  unfold State.recoveryComplete
  split <;> rfl

@[simp] theorem emptyQueue_work : work (s.emptyQueue p) = work s := by
  unfold State.emptyQueue
  rw [clearInFlight_work, setPort_work]

@[simp] theorem dropReply_work : work (s.dropReply p) = work s := by
  cases p <;> rfl

end

namespace KeepsFlows

variable (s : State)

/-! ## A port that loses its queue (R101, R153, R154) -/

theorem loseWork (f : FlowId) (n : TargetId) : KeepsFlows s (s.loseWork f n) := by
  unfold State.loseWork
  split
  · exact endBroken s f n _
  · next gate record => exact (dropGated s f record).trans (of_work (refuse_work _ n _ _ _))
  · exact refl s
  · exact refl s
  · exact refl s

theorem portReadsFlow (p : Port) (f : FlowId) : KeepsFlows s (State.portReadsFlow p s f) := by
  unfold State.portReadsFlow
  split
  · exact refl s
  · split
    · exact refl s
    · split
      · exact (of_work (raiseFault_work s _)).trans (failFlow _ f _)
      · split
        · exact loseWork s f _
        · exact refl s

theorem flowsAfterEmptying (p : Port) : KeepsFlows s (s.flowsAfterEmptying p) := by
  unfold State.flowsAfterEmptying
  split
  · exact refl s
  · exact foldl s (fun u f => portReadsFlow u p f) allFlows

theorem enterOff (p : Port) : KeepsFlows s (s.enterOff p) := by
  unfold State.enterOff
  dsimp only
  exact (of_work (emptyQueue_work s p)).trans ((of_work (setPort_work _ p _)).trans ((flowsAfterEmptying _ p).trans
    ((of_work (dropReply_work _ p)).trans (of_work (setPort_work _ p _)))))

theorem transmissionError (p : Port) : KeepsFlows s (s.transmissionError p) := by
  unfold State.transmissionError
  dsimp only
  split
  · split
    · exact (of_work (setPort_work s p _)).trans (enterOff _ p)
    · exact of_work rfl
  · exact refl s

theorem restart (p : Port) : KeepsFlows s (s.restart p) := by
  unfold State.restart
  dsimp only
  refine trans ?_ (of_work (setPort_work _ p _))
  split
  · exact (of_work (emptyQueue_work s p)).trans (flowsAfterEmptying _ p)
  · exact of_work (emptyQueue_work s p)

end KeepsFlows

/-! ## The check engine (R105 to R113) -/

theorem mapFlow_congr {u v : State} (h : work u = work v) (f : FlowId) (g : FlowCtx → FlowCtx) :
    work (u.mapFlow f g) = work (v.mapFlow f g) := by
  have here := flow_of_work h f
  injection h with flows cells engine window
  simp only [work, State.mapFlow, State.setFlow, here, flows, cells, engine, window]

/-- Freeing the cells of a flow reads the flows and the cells alone (R101). -/
theorem freeFlowCells_congr {u v : State} (h : work u = work v) (f : FlowId) :
    work (u.freeFlowCells f) = work (v.freeFlowCells f) := by
  have freed (l : List CellId) (a b : State) (same : a.cells = b.cells) :
      (l.foldl State.freeCell a).cells = (l.foldl State.freeCell b).cells := by
    induction l generalizing a b with
    | nil => exact same
    | cons c rest ih =>
      refine ih _ _ ?_
      simp only [State.freeCell, State.setCell, State.cell, same]
  have here := flow_of_work h f
  injection h with flows cells engine window
  simp only [work, State.freeFlowCells_eq, here, flows, engine, window, freed _ u v cells]

namespace KeepsPool

variable (s : State) (f : FlowId) (n : TargetId)

/-- The frame of a block that passed its check goes on, and its cells are free (R90, R101). -/
theorem releaseBlock {p : Inspected} (x : CellContent) (loading : (s.flow f).state = .loading) :
    KeepsPool s (s.releaseBlock f n p x) := by
  unfold State.releaseBlock
  dsimp only
  split
  · exact (KeepsFlows.tableFault s f n _ _).toKeepsPool
  · split
    · refine dropsCells (f := f) (a := fun c => { c with
          pendingReq := some ⟨.block p.seq p.dataLength p.isRepeat, s.now + ms c.params.responseTime⟩, state := .loading })
        (g := fun c => { c with lastVerdict := some .matched, record := none }) ⟨fun _ => rfl, fun _ => rfl⟩
        ⟨fun _ => rfl, fun _ => rfl⟩ ?_ fun ok => ?_
      · unfold State.setVerdict State.setRecord
        rw [mapFlow_mapFlow]
        exact mapFlow_congr (freeFlowCells_congr (by rfl) f) f _
      · have new := flowOk_pending ok (k := .block p.seq p.dataLength p.isRepeat) (Or.inr ⟨loading, by simp [PendingKind.state]⟩)
          (s.now + ms (s.flow f).params.responseTime) (r := none) trivial
        refine ⟨fun _ => flowOk_of_shape ?_ new, by simp only [emptied, loading], rfl, fun _ => ?_⟩
        · rfl
        · rw [loading]
          rfl
    · exact (KeepsFlows.endBroken s f n _).toKeepsPool

theorem mismatch : KeepsPool s (s.mismatch f n) := by
  have dropped : KeepsPool s ((((s.freeFlowCells f).refuse n UpdateCode.block.code .checkFailed 0x01).setVerdict f
      .mismatch).setRecord f none) := by
    refine dropsCells (f := f) (a := id) (g := fun c => { c with lastVerdict := some .mismatch, record := none })
      cellsStay_id ⟨fun _ => rfl, fun _ => rfl⟩ ?_ fun ok => ?_
    · unfold State.setVerdict State.setRecord
      rw [mapFlow_mapFlow, KeepsFlows.mapFlow_id]
      rfl
    · have new := flowOk_dropped ok (r := none) trivial
      refine ⟨fun _ => flowOk_of_shape ?_ new, Iff.rfl, rfl, id⟩
      rfl
  exact dropped.trans (KeepsFlows.countFailure _ f).toKeepsPool

theorem compare {p : Inspected} (x : CellContent) (loading : (s.flow f).state = .loading) :
    KeepsPool s (s.compare f n p x) := by
  unfold State.compare
  dsimp only
  split
  · exact (KeepsFlows.tableFault s f n _ _).toKeepsPool
  · split
    · exact (KeepsFlows.tableFault s f n _ _).toKeepsPool
    · split
      · exact releaseBlock s f n x loading
      · exact mismatch s f n

end KeepsPool

/-- What a slice's result keeps: the flows in any case, and the pool when the slice is of the head of its flow's cells. -/
structure KeepsPoolIf (head : Prop) (s s' : State) : Prop where
  flows : FlowsOk s → FlowsOk s'
  bound : FlowsOk s → TargetsBoundOnce s → TargetsBoundOnce s'
  core : head → FlowsOk s → PoolCore s → PoolCore s'

theorem KeepsPool.anyway {s s' : State} (h : KeepsPool s s') (head : Prop) : KeepsPoolIf head s s' :=
  ⟨h.flows, h.bound, fun _ => h.core⟩

theorem KeepsPoolIf.trans {head : Prop} {s u v : State} (a : KeepsPoolIf head s u) (b : KeepsPool u v) :
    KeepsPoolIf head s v :=
  ⟨b.flows ∘ a.flows, fun ok h => b.bound (a.flows ok) (a.bound ok h),
    fun head ok h => b.core (a.flows ok) (a.core head ok h)⟩

section
variable (s : State) (f : FlowId)

/-- Folding the head cell leaves the flow as it is for the rules of the flows (R108). -/
theorem follows_foldHead {p : Inspected} (x : CellContent) (record : (s.flow f).record = some (.inspected p))
    (ok : FlowOk (s.flow f)) : Follows (s.flow f) ((s.flow f).foldHead x) := by
  obtain ⟨loading, settled⟩ := ok.inspected p record
  have new := flowOk_inspected ok loading settled p (s.flow f).fifo.tail (s.flow f).held
  refine ⟨fun _ => flowOk_of_shape ?_ new, Iff.rfl, rfl, id⟩
  simp only [shape, FlowCtx.foldHead, boundTo, record]

/-- The held cell stays the flow's when it is folded (R108, R109). -/
theorem keeps_foldHeld {c : CellId} {p : Inspected} (x : CellContent)
    (record : (s.flow f).record = some (.inspected p)) (held : (s.flow f).held = some c) :
    KeepsPoolIf ((s.flow f).fifo.head? = some c) s (s.mapFlow f (·.foldHead x)) := by
  have change : Changes s (s.mapFlow f (·.foldHead x)) f ((s.flow f).foldHead x) :=
    ⟨fun g => State.flow_mapFlow s f g _, rfl⟩
  refine ⟨fun ok => change.flowsOk ok (follows_foldHead s f x record (ok.each f)),
    fun ok once => change.boundOnce once (follows_foldHead s f x record (ok.each f)), fun head ok pool => ?_⟩
  obtain ⟨rest, fifo⟩ : ∃ rest, (s.flow f).fifo = c :: rest := List.head?_eq_some_iff.mp head
  have before : (s.flow f).heldCells = c :: rest := by
    unfold FlowCtx.heldCells
    rw [held, fifo]
    exact if_pos List.mem_cons_self
  have nodup := pool.once f
  rw [before, List.nodup_cons] at nodup
  have after : ((s.flow f).foldHead x).heldCells = rest ++ [c] := by
    unfold FlowCtx.heldCells FlowCtx.foldHead
    simp only [held, fifo, List.tail_cons, nodup.1, if_false]
  have perm : (rest ++ [c]).Perm (c :: rest) := List.perm_append_comm
  refine change.core pool (fun h => ?_) (fun h => ?_) (fun d mem => ?_) fun d => ?_
  · rw [after]
    exact perm.nodup_iff.mpr (before ▸ h)
  · rw [after, perm.length_eq, ← before]
    exact h
  · rw [after, perm.mem_iff, ← before] at mem
    exact Or.inl mem
  · rw [after, perm.mem_iff, ← before]
    have inUse : d ∈ (s.flow f).heldCells → (s.cell d).inUse = true := fun mem => (pool.inUse d).mpr ⟨f, mem⟩
    rw [State.mapFlow_cell]
    tauto

/-- Another cell is free when it is folded (R101, R108). -/
theorem keeps_foldFreed {c : CellId} {p : Inspected} (x : CellContent)
    (record : (s.flow f).record = some (.inspected p)) (other : (s.flow f).held ≠ some c) :
    KeepsPoolIf ((s.flow f).fifo.head? = some c) s ((s.mapFlow f (·.foldHead x)).freeCell c) := by
  have change : Changes s ((s.mapFlow f (·.foldHead x)).freeCell c) f ((s.flow f).foldHead x) :=
    ⟨fun g => (State.freeCell_flow _ c g).trans (State.flow_mapFlow s f g (·.foldHead x)), rfl⟩
  refine ⟨fun ok => change.flowsOk ok (follows_foldHead s f x record (ok.each f)),
    fun ok once => change.boundOnce once (follows_foldHead s f x record (ok.each f)), fun head ok pool => ?_⟩
  obtain ⟨rest, fifo⟩ : ∃ rest, (s.flow f).fifo = c :: rest := List.head?_eq_some_iff.mp head
  have cells : (s.flow f).heldCells = c :: ((s.flow f).foldHead x).heldCells := by
    unfold FlowCtx.heldCells FlowCtx.foldHead
    simp only [fifo, List.tail_cons]
    cases held : (s.flow f).held with
    | none => rfl
    | some h =>
      have apart : h ≠ c := fun eq => other (eq ▸ held)
      simp only [List.mem_cons, apart, false_or]
      split <;> rfl
  have nodup := pool.once f
  rw [cells, List.nodup_cons] at nodup
  refine change.core pool (fun _ => nodup.2) (fun h => ?_) (fun d mem => ?_) fun d => ?_
  · rw [cells, List.length_cons] at h
    exact (Nat.le_succ _).trans h
  · rw [cells]
    exact Or.inl (List.mem_cons_of_mem c mem)
  · rw [State.cell_freeCell, State.mapFlow_cell, cells, List.mem_cons]
    have inUse : d ∈ ((s.flow f).foldHead x).heldCells → (s.cell d).inUse = true :=
      fun mem => (pool.inUse d).mpr ⟨f, cells ▸ List.mem_cons_of_mem c mem⟩
    by_cases same : d = c
    · subst same
      simp only [if_true, Bool.false_eq_true, nodup.1, true_or, not_true_eq_false, false_and, or_self]
    · simp only [same, if_false, false_or]
      tauto

theorem keeps_flowSliceResult (c : CellId) (x : Cell) :
    KeepsPoolIf ((s.flow f).fifo.head? = some c) s (s.flowSliceResult f c x) := by
  unfold State.flowSliceResult
  dsimp only
  split
  · next n p target record =>
    split
    · exact ((KeepsFlows.of_work (raiseFault_work s _)).trans (KeepsFlows.endBroken _ f n _)).toKeepsPool.anyway _
    · have folded : ((s.mapFlow f (·.foldHead x.content)).flow f) = (s.flow f).foldHead x.content := by
        rw [State.flow_mapFlow, if_pos rfl]
      split
      · next held =>
        rw [folded] at held
        refine ⟨fun ok => ?_, fun ok => ?_, fun head ok => ?_⟩
        all_goals
          have loading := ((ok.each f).inspected p record).1
          have whole := (keeps_foldHeld s f x.content record held).trans
            (KeepsPool.compare _ f n (p := p) x.content (by rw [folded]; exact loading))
        · exact whole.flows ok
        · exact whole.bound ok
        · exact whole.core head ok
      · next other =>
        rw [folded] at other
        exact keeps_foldFreed s f x.content record other
  · exact (KeepsPool.refl s).anyway _

end

/-! ## Self checks (R32, R33, R112) -/

section
variable (s : State) (i : ImageId)

@[simp] theorem selfCheckFault_work (k : FaultFlag) : work (s.selfCheckFault i k) = work s := raiseFault_work s k

@[simp] theorem selfCheckCompare_work : work (s.selfCheckCompare i) = work s := by
  unfold State.selfCheckCompare
  dsimp only
  split
  · exact selfCheckFault_work s i _
  · rfl

@[simp] theorem imageSliceResult_work (b : List Byte) (n : Nat) (e : Option FaultFlag) :
    work (s.imageSliceResult i b n e) = work s := by
  unfold State.imageSliceResult
  dsimp only
  split
  · exact selfCheckFault_work s i _
  · split
    · exact selfCheckFault_work s i _
    · split
      · rw [selfCheckCompare_work, setImage_work]
      · rfl

end

namespace KeepsFlows

variable (s : State)

theorem imageSliceComplete : KeepsFlows s s.imageSliceComplete := by
  unfold State.imageSliceComplete
  split
  · refine nextSlice s ?_
    split
    · exact .refl s
    · exact .of_work (imageSliceResult_work s _ _ _ _)
  · exact refl s
  · exact refl s

/-! ## The supply monitor (R128 to R137) -/

theorem supplyHold (f : FlowId) : KeepsFlows s (s.supplyHold f) := by
  unfold State.supplyHold
  dsimp only
  split
  · next working =>
    have held : KeepsFlows s (s.mapFlow f fun c => { c with holds := { c.holds with supply := true } }) := by
      refine mapFlow s f (fun ok => ⟨fun _ => flowOk_holds ok fun idle => ?_, Iff.rfl, rfl, id⟩) rfl rfl
      cases working.symm.trans idle
    refine held.trans ?_
    split
    · exact refusesParcel _ f _ _ _ _ _
    · next n gate _ record => exact (dropGated _ f record).trans (of_work (refuse_work _ n _ _ _))
    · exact refl _
  · exact refl s

theorem supplyRelease (f : FlowId) : KeepsFlows s (s.supplyRelease f) := by
  refine mapFlow s f (fun ok => ⟨fun _ => flowOk_holds ok fun idle => ?_, Iff.rfl, rfl, id⟩) rfl rfl
  rw [ok.noHolds idle]
  rfl

theorem flowsAtSupplyChange (old new : SupplyState) : KeepsFlows s (s.flowsAtSupplyChange old new) := by
  unfold State.flowsAtSupplyChange
  split
  · exact foldl s supplyHold allFlows
  · split
    · exact foldl s supplyRelease allFlows
    · exact refl s

theorem filter (v : Nat) : KeepsFlows s (s.filter v) := by
  unfold State.filter State.changeSupply
  dsimp only
  split
  · exact of_work (mapSupply_work s _)
  · split
    · exact (of_work (mapSupply_work s _)).trans ((flowsAtSupplyChange _ _ _).trans
        ((of_work (offersComeFirst_work _)).trans (of_work (queueAlert_work _ _))))
    · exact of_work (mapSupply_work s _)

section
variable (f : FlowId) (n : TargetId) {g : Gated} (record : (s.flow f).record = some (.gated g))
include record

theorem refuseGated (r : Reason) (d : Byte) : KeepsFlows s (s.refuseGated f n g r d) :=
  (dropGated s f record).trans (of_work (refuse_work _ n _ r d))

/-- A gated frame goes on, and its cell is free (R94, R95, R101). -/
theorem forwardGated : KeepsFlows s (s.forwardGated f n g) := by
  unfold State.forwardGated
  split
  · exact tableFault s f n _ _
  · split
    · exact (of_work (raiseFault_work s _)).trans (refuseGated _ f n (by rw [flow_of_work (raiseFault_work s _)]; exact record) _ _)
    · split
      · refine of_ok fun all => ?_
        have idle := (all.each f).gated g record
        have begins : Begins (s.flow f).state g.pendingKind := by
          rw [idle]
          cases g with
          | erase r => exact Or.inl ⟨rfl, Or.inl rfl⟩
          | activate => exact Or.inl ⟨rfl, Or.inr (Or.inr rfl)⟩
        refine dropsUnfolded (f := f) (a := fun c => { c with
            pendingReq := some ⟨g.pendingKind, s.now + ms c.params.responseTime⟩, state := g.pendingKind.state,
            openRegion := if g.pendingKind.keepsOpen then c.openRegion else none })
          (g := fun c => { c with record := none }) ⟨fun _ => rfl, fun _ => rfl⟩ ⟨fun _ => rfl, fun _ => rfl⟩ ?_
          (fun ok => ?_) fun ok => gated_fifo_nil ok record
        · exact mapFlow_congr ((withdrawGate_work _ f).trans (freeFlowCells_congr (by rfl) f)) f _
        · have new := flowOk_pending ok begins (s.now + ms (s.flow f).params.responseTime) (r := none) trivial
          refine ⟨fun _ => new, ?_, rfl, fun _ => ?_⟩
          · rw [idle]
            cases g <;> simp [emptied, Gated.pendingKind, PendingKind.state]
          · rw [idle]
            rfl
      · exact refuseGated s f n record _ _

end

theorem gateAnswer (v : Nat) (f : FlowId) : KeepsFlows s (State.gateAnswer v s f) := by
  unfold State.gateAnswer
  split
  · next n g _ record =>
    split
    · exact refuseGated s f n record _ _
    · split
      · exact refuseGated s f n record _ _
      · exact forwardGated s f n record
  · exact refl s

theorem answerGates (v : Nat) : KeepsFlows s (s.answerGates v) := foldl s (fun u f => gateAnswer u v f) _

theorem nextConversion_work (u : State) : work u.nextConversion = work u := by
  unfold State.nextConversion
  split <;> rfl

theorem conversionComplete (raw : Nat) : KeepsFlows s (s.conversionComplete raw) := by
  unfold State.conversionComplete
  dsimp only
  split
  · exact (of_work (mapSupply_work s _)).trans ((filter _ _).trans
      ((answerGates _ _).trans (of_work (nextConversion_work _))))
  · exact refl s

theorem sampleTime : KeepsFlows s s.sampleTime := by
  refine of_work ?_
  unfold State.sampleTime
  dsimp only
  split
  · split <;> rfl
  · rfl

/-! ## The window (R115 to R122) -/

theorem clearRecordOf (f : FlowId) : KeepsFlows s (s.clearRecordOf f) := by
  unfold State.clearRecordOf
  split
  · next ended =>
    refine setRecord s f (fun ok => light_of_state ok (fun loading => ?_) fun idle => ?_) trivial
    · simp only [loading, reduceCtorEq, or_self] at ended
    · simp only [idle, reduceCtorEq, or_self] at ended
  · exact refl s

end KeepsFlows

end Sys2Proof.Proofs
end

section
/-! The window, the bindings and the requests keep the rules of the flows and of the cell pool, and so does every step: O58
and O59; and O60. -/

namespace Sys2Proof.Proofs
open Sys2Proof.Machine

/-! ## The window closes (R120 to R122) -/

/-- A flow after the entry of another one, or of itself, to FAILED (R63, R121). -/
theorem failFlow_atWork (s : State) (f g : FlowId) (k : Condition) :
    ((s.failFlow f k).flow g).state.atWork = if g = f then false else (s.flow g).state.atWork := by
  unfold State.failFlow
  dsimp only
  split
  · rw [flow_of_work (flowAlert_work _ f _), State.flow_mapFlow]
    split
    · rfl
    · next other =>
      rw [State.withdrawGate_flow, State.abandonFlowSlice_flow, State.freeFlowCells_flow, if_neg other]
  · next idle =>
    split
    · next same => exact same ▸ Bool.eq_false_of_not_eq_true idle
    · rfl

/-- After every flow was made to fail none is at work. -/
theorem failFlow_foldl_atWork (s : State) (k : Condition) (l : List FlowId) (g : FlowId) :
    ((l.foldl (fun u f => u.failFlow f k) s).flow g).state.atWork =
      if g ∈ l then false else (s.flow g).state.atWork := by
  induction l generalizing s with
  | nil => rfl
  | cons f rest ih =>
    rw [List.foldl_cons, ih, failFlow_atWork]
    by_cases later : g ∈ rest
    · rw [if_pos later, if_pos (List.mem_cons_of_mem f later)]
    · rw [if_neg later]
      simp only [List.mem_cons, later, or_false]

theorem clearRecordOf_state (s : State) (f g : FlowId) : ((s.clearRecordOf f).flow g).state = (s.flow g).state := by
  unfold State.clearRecordOf
  split
  · rw [State.flow_setRecord]
    split
    · next same => rw [same]
    · rfl
  · rfl

@[simp] theorem clearTrackers_work (s : State) : work s.clearTrackers = work s := by
  refine foldl_view work State.clearTrackerOf (fun u f => ?_) allFlows s
  unfold State.clearTrackerOf
  split
  · rfl
  · split <;> rfl

namespace KeepsFlows

variable (s : State)

/-- The window opens, or it closes with no flow at work (R115). -/
theorem setWindow {w : Window} (closed : w.state = .closed → ∀ f, (s.flow f).state.atWork = false) :
    KeepsFlows s { s with window := w } where
  flows ok := ⟨ok.each, closed⟩
  bound _ once := once
  core _ pool := ⟨pool.inUse, pool.once, pool.alone, pool.quota⟩
  engine _ engine := ⟨engine.slice, engine.idle⟩

theorem closeWindow (cause : ClosureCause) : KeepsFlows s (s.closeWindow cause) := by
  unfold State.closeWindow
  dsimp only
  refine (foldl s (fun u f => failFlow u f _) allFlows).trans ((foldl _ clearRecordOf allFlows).trans
    ((of_work (clearTrackers_work _)).trans ((setWindow _ fun _ f => ?_).trans (of_work (queueAlert_work _ _)))))
  have state := foldl_view (fun u : State => (u.flow f).state) State.clearRecordOf
    (fun u g => clearRecordOf_state u g f) allFlows (allFlows.foldl (fun u g => u.failFlow g cause.condition) s)
  rw [flow_of_work (clearTrackers_work _), state, failFlow_foldl_atWork, if_pos (mem_allFlows f)]

theorem windowExpiry : KeepsFlows s s.windowExpiry := by
  unfold State.windowExpiry
  split
  · exact closeWindow s _
  · exact refl s

theorem openWindow (period : Nat) : KeepsFlows s (s.openWindow period) := by
  unfold State.openWindow
  refine (setWindow s fun closed => ?_).trans (of_work (clearTrackers_work _))
  cases closed

/-! ## Bindings (R42, R43) -/

/-- A free flow is bound to a target that no other flow is bound to (R42). -/
theorem binds {f : FlowId} {b : Binding} (critical : Bool) (free : (s.flow f).state = .free)
    (opened : s.window.state ≠ .closed) (unbound : Unbound s b.target) :
    KeepsFlows s (s.setFlow f (boundContext b critical)) := by
  have change : Changes s (s.setFlow f (boundContext b critical)) f (boundContext b critical) :=
    ⟨fun g => State.flow_setFlow s f g _, rfl⟩
  have bare (ok : FlowsOk s) : (s.flow f).held = none ∧ (s.flow f).fifo = [] :=
    light_holds_none (ok.each f)
      (light_of_state (ok.each f) (by rw [free]; decide) (by rw [free]; decide))
  refine ⟨⟨fun ok => ⟨fun g => ?_, fun closed => (opened closed).elim⟩, fun ok once g k n => ?_, fun ok pool => ?_⟩,
    fun ok => engineOk_of_fifo rfl fun g => ?_⟩
  · by_cases same : g = f
    · rw [same, change.here]
      exact flowOk_boundContext b critical
    · rw [change.elsewhere same]
      exact ok.each g
  · by_cases sameG : g = f <;> by_cases sameK : k = f
    · exact fun _ _ _ _ => sameG.trans sameK.symm
    · rw [sameG, change.here, change.elsewhere sameK]
      rintro - bound ⟨⟩ target
      exact (unbound k bound target).elim
    · rw [sameK, change.here, change.elsewhere sameG]
      rintro bound - target ⟨⟩
      exact (unbound g bound target).elim
    · rw [change.elsewhere sameG, change.elsewhere sameK]
      exact once g k n
  · obtain ⟨held, fifo⟩ := bare ok
    have none : (s.flow f).heldCells = [] := (heldCells_of_none held).trans fifo
    refine change.core pool (fun _ => List.nodup_nil) (fun _ => Nat.zero_le _) (fun d mem => ?_) fun d => ?_
    · cases mem
    · have empty : (boundContext b critical).heldCells = [] := rfl
      rw [none, empty, State.setFlow_cell]
      simp only [List.not_mem_nil, not_false_eq_true, true_and, false_or]
  · rw [change.flow]
    split
    · next same => rw [same, (bare ok).2]; rfl
    · rfl

/-- A flow that is released gives up its cells, its slice and its target (R43, R101). -/
theorem releases {u : State} {f : FlowId}
    (h : work u = work ((s.dropParcelWork f).setFlow f FlowCtx.reset)) : KeepsFlows s u := by
  have drops : Drops s u f FlowCtx.reset := by
    refine ⟨⟨fun g => ?_, ?_⟩, fun d => ?_, rfl, rfl⟩
    · rw [flow_of_work h, State.flow_setFlow]
      split
      · rfl
      · next other =>
        rw [State.dropParcelWork, State.abandonFlowSlice_flow, State.freeFlowCells_flow, if_neg other]
    · have window : u.window.state = ((s.dropParcelWork f).setFlow f FlowCtx.reset).window.state := window_of_work h
      rw [window, State.setFlow_window]
      exact congrArg (fun k : Kept => k.window.state) (s.dropParcelWork_kept f)
    · rw [cell_of_work h, State.setFlow_cell, State.dropParcelWork, State.abandonFlowSlice_cell,
        State.freeFlowCells_cell]
  have engine : u.engine = (s.abandonFlowSlice f).engine := by
    rw [engine_of_work h, State.setFlow_engine, State.dropParcelWork, State.abandonFlowSlice_eq,
      State.abandonFlowSlice_eq, State.freeFlowCells_engine]
  refine ⟨⟨fun ok => ⟨fun g => ?_, fun closed g => ?_⟩, fun ok once g k n => ?_, fun _ => drops.core⟩,
    fun _ => drops.engineOk engine⟩
  · by_cases same : g = f
    · rw [same, drops.here]
      exact flowOk_reset
    · rw [drops.elsewhere same]
      exact ok.each g
  · by_cases same : g = f
    · rw [same, drops.here]
      rfl
    · rw [drops.elsewhere same]
      exact ok.closed (drops.window.symm.trans closed) g
  · by_cases sameG : g = f
    · rw [sameG, drops.here]
      exact fun bound => (bound rfl).elim
    · by_cases sameK : k = f
      · rw [sameK, drops.here]
        exact fun _ bound => (bound rfl).elim
      · rw [drops.elsewhere sameG, drops.elsewhere sameK]
        exact once g k n

theorem releaseFlow (f : FlowId) : KeepsFlows s (s.releaseFlow f) := by
  have written {a b : State} (h : work a = work b) :
      work (a.setFlow f FlowCtx.reset) = work (b.setFlow f FlowCtx.reset) := by
    injection h with flows cells engine window
    simp only [work, State.setFlow, flows, cells, engine, window]
  refine releases s (f := f) ?_
  unfold State.releaseFlow
  dsimp only
  refine written ?_
  have dropped : work ((((s.freeFlowCells f).abandonFlowSlice f).withdrawGate f).removeAlert (.flow f)) =
      work (s.dropParcelWork f) := (removeAlert_work _ _).trans (withdrawGate_work _ f)
  split
  · exact ((setTracker_work _ _ _).trans (mapReferences_work _ _ _)).trans dropped
  · exact dropped

/-! ## Requests -/

variable (p : List Byte)

theorem carryFlowBind : KeepsFlows s (State.carryFlowBind p s).1 := by
  have checked (f : FlowId) (n : TargetId) (i : ImageId) (q : FlowParams) (opened : s.window.state ≠ .closed)
      (free : (s.flow f).state = .free) : KeepsFlows s (s.bindChecked f n i q).1 := by
    unfold State.bindChecked
    dsimp only
    split
    · exact of_work (raiseFault_work s _)
    · split
      · exact refl s
      · next available =>
        split
        · exact of_work (raiseFault_work s _)
        · split
          · exact refl s
          · have unbound : Unbound s n := by
              rw [not_or] at available
              exact (boundFlow_none s).mp (Option.not_isSome_iff_eq_none.mp available.2)
            have bound := binds s (b := ⟨n, i, q, List.replicate ((s.image i).regionCount.getD 0) .blank⟩)
              (s.supply.state == .critical) free opened unbound
            exact bound.trans (of_work rfl)
  unfold State.carryFlowBind
  split
  · exact refl s
  · split
    · exact refl s
    · next ordered =>
      rw [not_or, not_not] at ordered
      split
      · exact checked _ _ _ _ ordered.1 ordered.2
      · exact refl s

theorem carryFlowRelease : KeepsFlows s (State.carryFlowRelease p s).1 := by
  unfold State.carryFlowRelease
  split
  · exact refl s
  · split
    · exact refl s
    · exact releaseFlow s _

theorem setMaster (f : FlowId) (v : Bool) (working : (s.flow f).state.atWork = true) :
    KeepsFlows s (s.setMaster f v).1 := by
  refine mapFlow s f (g := fun c => { c with holds := { (s.flow f).holds with master := v } })
    (fun ok => ⟨fun _ => flowOk_holds ok fun idle => ?_, Iff.rfl, rfl, id⟩) rfl rfl
  cases working.symm.trans idle

theorem carryFlowHold : KeepsFlows s (State.carryFlowHold p s).1 := by
  unfold State.carryFlowHold
  split
  · exact refl s
  · split
    · next working => exact setMaster s _ _ working
    · exact refl s

theorem carryFlowResume : KeepsFlows s (State.carryFlowResume p s).1 := by
  unfold State.carryFlowResume
  split
  · exact refl s
  · split
    · next working => exact setMaster s _ _ working
    · exact refl s

theorem carryWindowOpen : KeepsFlows s (State.carryWindowOpen p s).1 := by
  unfold State.carryWindowOpen
  dsimp only
  split
  · exact refl s
  · split
    · exact refl s
    · split
      · exact refl s
      · simp only [State.done]
        exact openWindow s _

theorem carryWindowRenew : KeepsFlows s (State.carryWindowRenew p s).1 := by
  unfold State.carryWindowRenew
  dsimp only
  split
  · exact refl s
  · split
    · exact refl s
    · split
      · exact of_work rfl
      · split
        · exact refl s
        · exact of_work rfl

theorem carryWindowClose : KeepsFlows s (State.carryWindowClose p s).1 := by
  unfold State.carryWindowClose
  split
  · exact refl s
  · exact closeWindow s _

theorem carryPortSet : KeepsFlows s (State.carryPortSet p s).1 := by
  unfold State.carryPortSet
  split
  · exact (of_work (setPort_work s _ _)).trans (restart _ _)
  · exact refl s

theorem carryPortRestart : KeepsFlows s (State.carryPortRestart p s).1 := by
  unfold State.carryPortRestart
  split
  · exact refl s
  · split
    · exact restart s _
    · exact refl s

end KeepsFlows

/-! ### Requests that no flow takes part in -/

section
variable (s : State) (p : List Byte)

theorem carryRouteWrite_work : work (State.carryRouteWrite p s).1 = work s := by
  unfold State.carryRouteWrite
  split <;> rfl

theorem carryRouteRead_work : work (State.carryRouteRead p s).1 = work s := by
  unfold State.carryRouteRead
  dsimp only
  split
  · rfl
  · split
    · exact raiseFault_work _ _
    · rfl

theorem carryTargetWrite_work : work (State.carryTargetWrite p s).1 = work s := by
  unfold State.carryTargetWrite
  split
  · unfold State.writeTarget
    dsimp only
    split
    · rfl
    · split
      · split
        · exact raiseIf_work s _ _
        · exact raiseIf_work s _ _
      · rfl
  · rfl

theorem carryTargetRead_work : work (State.carryTargetRead p s).1 = work s := by
  unfold State.carryTargetRead
  dsimp only
  split
  · rfl
  · exact raiseIf_work _ _ _

theorem loadRequest_keeps {i : ImageId} {k : ImageState} {go : State → State × Answer} (h : KeepsFlows s (go s).1) :
    KeepsFlows s (s.loadRequest i k go).1 := by
  unfold State.loadRequest
  split
  · exact .of_work (raiseFault_work s _)
  · split
    · exact .refl s
    · split
      · exact .refl s
      · exact h

theorem carryImageBegin_keeps : KeepsFlows s (State.carryImageBegin p s).1 := by
  unfold State.carryImageBegin
  dsimp only
  split
  · exact .refl s
  · split
    · exact .refl s
    · refine loadRequest_keeps s (.of_work ?_)
      unfold State.beginImage
      split <;> rfl

theorem carryImageRegion_keeps : KeepsFlows s (State.carryImageRegion p s).1 := by
  unfold State.carryImageRegion
  split
  · refine loadRequest_keeps s (.of_work ?_)
    unfold State.loadRegion
    dsimp only
    split
    · rfl
    · split
      · rfl
      · split
        · exact raiseIf_work s _ _
        · exact raiseIf_work s _ _
  · exact .refl s

theorem carryImageChecks_keeps : KeepsFlows s (State.carryImageChecks p s).1 := by
  unfold State.carryImageChecks
  dsimp only
  split
  · exact .refl s
  · split
    · exact .refl s
    · refine loadRequest_keeps s (.of_work ?_)
      unfold State.loadChecks
      dsimp only
      split <;> rfl

/-- An image that enters CHECKING wakes a resting engine (R31, R105). -/
theorem wakeEngine_image_keeps (i : ImageId) : KeepsFlows s (s.wakeEngine (.image i)) := by
  obtain ⟨e, woken⟩ := wakeEngine_eq s (.image i)
  refine ⟨woken ▸ .ofEngine s e, fun _ old => ?_⟩
  unfold State.wakeEngine
  split
  · refine ⟨fun f c x running => ?_, fun resting => ?_⟩
    · cases running
    · cases resting
  · exact old

theorem carryImageEnd_keeps : KeepsFlows s (State.carryImageEnd p s).1 := by
  unfold State.carryImageEnd
  split
  · exact .refl s
  · split
    · exact .refl s
    · refine loadRequest_keeps s ?_
      unfold State.endImage
      dsimp only
      split
      · exact (KeepsFlows.of_work (raiseIf_work s _ _)).trans
          ((KeepsFlows.of_work (setImage_work _ _ _)).trans (wakeEngine_image_keeps _ _))
      · exact .of_work (raiseIf_work s _ _)

theorem abandonImageSlice_keeps (i : ImageId) : KeepsFlows s (s.abandonImageSlice i) := by
  unfold State.abandonImageSlice
  split
  · split
    · refine ⟨.ofEngine s _, fun _ _ => ⟨fun f c x running => ?_, fun resting => ?_⟩⟩
      · cases running
      · cases resting
    · exact .refl s
  · exact .refl s

theorem carryImageDiscard_keeps : KeepsFlows s (State.carryImageDiscard p s).1 := by
  unfold State.carryImageDiscard
  dsimp only
  split
  · exact .refl s
  · split
    · exact .of_work (raiseIf_work s _ _)
    · exact (KeepsFlows.of_work (raiseIf_work s _ _)).trans ((abandonImageSlice_keeps _ _).trans (.of_work rfl))

theorem carryImageQuery_work : work (State.carryImageQuery p s).1 = work s := by
  unfold State.carryImageQuery
  split
  · rfl
  · exact raiseIf_work s _ _

theorem carryFlowQuery_work : work (State.carryFlowQuery p s).1 = work s := by
  unfold State.carryFlowQuery
  split <;> rfl

theorem carryFaultsClear_work : work (State.carryFaultsClear p s).1 = work s := by
  unfold State.carryFaultsClear
  dsimp only
  split <;> rfl

theorem carryRoutingEnable_work : work (State.carryRoutingEnable p s).1 = work s := by
  unfold State.carryRoutingEnable
  split <;> rfl

theorem carrySupplySet_work : work (State.carrySupplySet p s).1 = work s := by
  unfold State.carrySupplySet
  split <;> rfl

/-- Every request that is carried out keeps the rules of the flows and of the pool. -/
theorem carry_keepsFlows (r : Request) : KeepsFlows s (State.carry r p s).1 := by
  cases r with
  | status => exact .refl s
  | faultsClear => exact .of_work (carryFaultsClear_work s p)
  | portSet => exact .carryPortSet s p
  | portRestart => exact .carryPortRestart s p
  | routeWrite => exact .of_work (carryRouteWrite_work s p)
  | routeRead => exact .of_work (carryRouteRead_work s p)
  | routingEnable => exact .of_work (carryRoutingEnable_work s p)
  | targetWrite => exact .of_work (carryTargetWrite_work s p)
  | targetRead => exact .of_work (carryTargetRead_work s p)
  | imageBegin => exact carryImageBegin_keeps s p
  | imageRegion => exact carryImageRegion_keeps s p
  | imageChecks => exact carryImageChecks_keeps s p
  | imageEnd => exact carryImageEnd_keeps s p
  | imageDiscard => exact carryImageDiscard_keeps s p
  | imageQuery => exact .of_work (carryImageQuery_work s p)
  | windowOpen => exact .carryWindowOpen s p
  | windowRenew => exact .carryWindowRenew s p
  | windowClose => exact .carryWindowClose s p
  | flowBind => exact .carryFlowBind s p
  | flowRelease => exact .carryFlowRelease s p
  | flowHold => exact .carryFlowHold s p
  | flowResume => exact .carryFlowResume s p
  | flowQuery => exact .of_work (carryFlowQuery_work s p)
  | supplySet => exact .of_work (carrySupplySet_work s p)
  | supplyQuery => exact .refl s

end

/-! ## The responder and the end of an event -/

section
variable (s : State)

@[simp] theorem reply_work (frame : CanFrame) (a : Answer) : work (s.reply frame a) = work s := by
  unfold State.reply
  split <;> rfl

@[simp] theorem replyEnqueue_work : work s.replyEnqueue = work s := by
  unfold State.replyEnqueue
  split
  · rfl
  · split <;> rfl

@[simp] theorem alertMove_work : work s.alertMove = work s := by
  unfold State.alertMove
  split
  · rfl
  · split <;> rfl

@[simp] theorem takeClaim_work (c : TrunkClaim) : work (s.takeClaim c) = work s := by
  cases c with
  | offer =>
    show work s.offerJoins = _
    unfold State.offerJoins
    split
    · rfl
    · exact offer_work _ _ _ _
  | reply => exact replyEnqueue_work s
  | alert => exact alertMove_work s

@[simp] theorem trunkTakes_work : work s.trunkTakes = work s :=
  s.trunkTakes_keeps (fun u => work u = work s) (fun u c h => (takeClaim_work u c).trans h) (fun _ _ h => h) rfl

theorem takeRequest_keepsFlows (r : Request) : KeepsFlows s (s.takeRequest r (State.carry r)) := by
  unfold State.takeRequest
  split
  · exact .refl s
  · split
    · split
      · exact (KeepsFlows.of_work (s := s) (s' := s.dropHead) rfl).trans ((carry_keepsFlows _ _ r).trans
          (.of_work ((trunkTakes_work _).trans (reply_work _ _ _))))
      · exact .of_work (reply_work _ _ _)
    · exact .refl s

theorem requestWithoutTag_work : work s.requestWithoutTag = work s := by
  unfold State.requestWithoutTag
  split
  · rfl
  · split <;> rfl

theorem unknownRequest_work : work s.unknownRequest = work s := by
  unfold State.unknownRequest
  split
  · rfl
  · split
    · exact reply_work _ _ _
    · rfl

/-- An upset cell stays used or unused (R102). -/
theorem cellUpset_keeps (c : CellId) (x : CellContent) : KeepsFlows s (s.happen (.cellUpset c x)) where
  flows ok := ⟨ok.each, ok.closed⟩
  bound _ once := once
  core _ pool := by
    refine ⟨fun d => ?_, pool.once, pool.alone, pool.quota⟩
    have same : ((s.happen (.cellUpset c x)).cell d).inUse = (s.cell d).inUse := by
      simp only [State.happen, State.cell_setCell]
      split
      · next eq => rw [eq]
      · rfl
    rw [same]
    exact pool.inUse d
  engine _ engine := ⟨engine.slice, engine.idle⟩

theorem happen_keepsFlows (o : Outside) : KeepsFlows s (s.happen o) := by
  cases o with
  | cellUpset c x => exact cellUpset_keeps s c x
  | routeUpset n e => exact .of_work rfl
  | targetUpset n e => exact .of_work rfl
  | imageUpset i u => exact .of_work rfl
  | slotUpset i r v => exact .of_work rfl
  | checkUpset k v => exact .of_work rfl
  | recessiveRun p => exact .of_work rfl

end

/-! ## A reset -/

section
variable (pending : List Instr) (outside : List Outside) (now : Time) (freeCount : Nat)

theorem resetWith_flow (f : FlowId) : (resetWith pending outside now freeCount).flow f = FlowCtx.reset := by
  show (Vector.replicate 16 FlowCtx.reset).get f = _
  rw [Vector.get_eq_getElem, Vector.getElem_replicate]

theorem resetWith_cell (c : CellId) : (resetWith pending outside now freeCount).cell c = Cell.reset := by
  show (Vector.replicate 512 Cell.reset).get c = _
  rw [Vector.get_eq_getElem, Vector.getElem_replicate]

theorem flowsOk_resetWith : FlowsOk (resetWith pending outside now freeCount) := by
  refine ⟨fun f => ?_, fun _ f => ?_⟩
  · rw [resetWith_flow]
    exact flowOk_reset
  · rw [resetWith_flow]
    rfl

theorem targetsBoundOnce_resetWith : TargetsBoundOnce (resetWith pending outside now freeCount) := by
  intro f g n bound
  rw [resetWith_flow] at bound
  exact (bound rfl).elim

theorem poolOk_resetWith : PoolOk (resetWith pending outside now freeCount) := by
  have none (f : FlowId) : ((resetWith pending outside now freeCount).flow f).heldCells = [] := by
    rw [resetWith_flow]
    rfl
  refine ⟨fun c => ?_, fun f => ?_, fun f g c mem => ?_, fun f => ?_, fun f c x running => ?_, fun _ f => ?_⟩
  · simp only [resetWith_cell, Cell.reset, none, List.not_mem_nil, exists_false, Bool.false_eq_true]
  · rw [none]
    exact List.nodup_nil
  · rw [none] at mem
    cases mem
  · rw [none]
    exact Nat.zero_le _
  · cases running
  · rw [resetWith_flow]
    rfl

end

/-! ## Steps -/

/-- What every step keeps of the flows and of the pool. -/
structure KeepsWork (s s' : State) : Prop where
  flows : FlowsOk s → FlowsOk s'
  bound : FlowsOk s → TargetsBoundOnce s → TargetsBoundOnce s'
  pool : FlowsOk s → PoolOk s → PoolOk s'

namespace KeepsWork

theorem refl (s : State) : KeepsWork s s := ⟨id, fun _ => id, fun _ => id⟩

theorem trans {s u v : State} (a : KeepsWork s u) (b : KeepsWork u v) : KeepsWork s v :=
  ⟨b.flows ∘ a.flows, fun ok h => b.bound (a.flows ok) (a.bound ok h), fun ok h => b.pool (a.flows ok) (a.pool ok h)⟩

theorem of_keepsFlows {s s' : State} (h : KeepsFlows s s') : KeepsWork s s' := by
  refine ⟨h.flows, h.bound, fun ok pool => ?_⟩
  obtain ⟨core, engine⟩ := (poolOk_iff s).mp pool
  exact (poolOk_iff s').mpr ⟨h.core ok core, h.engine ok engine⟩

theorem of_work {s s' : State} (h : work s' = work s) : KeepsWork s s' := of_keepsFlows (.of_work h)

theorem toReset (s : State) (p : List Instr) (o : List Outside) (n : Time) (k : Nat) :
    KeepsWork s { State.reset with pending := p, outside := o, now := n, freeCount := k } :=
  ⟨fun _ => flowsOk_resetWith p o n k, fun _ _ => targetsBoundOnce_resetWith p o n k,
    fun _ _ => poolOk_resetWith p o n k⟩

/-- The result of a slice and the choice of the next one (R106 to R113). -/
theorem flowSliceComplete (s : State) : KeepsWork s s.flowSliceComplete := by
  unfold State.flowSliceComplete
  split
  · next f c x abandoned running =>
    cases abandoned with
    | true => exact of_keepsFlows (.nextSlice s (.refl s))
    | false =>
      have result := keeps_flowSliceResult s f c x
      obtain ⟨e, next⟩ := nextSlice_eq (s.flowSliceResult f c x)
      have after := KeepsPool.ofEngine (s.flowSliceResult f c x) e
      simp only [Bool.false_eq_true, if_false]
      refine ⟨fun ok => ?_, fun ok once => ?_, fun ok pool => ?_⟩
      · rw [next]
        exact after.flows (result.flows ok)
      · rw [next]
        exact after.bound (result.flows ok) (result.bound ok once)
      · obtain ⟨core, engine⟩ := (poolOk_iff s).mp pool
        refine (poolOk_iff _).mpr ⟨?_, engineOk_nextSlice _⟩
        rw [next]
        exact after.core (result.flows ok) (result.core (engine.slice f c x running) ok core)
  · exact refl s
  · exact refl s

end KeepsWork

theorem stepLaw_keepsWork : StepLaw KeepsWork where
  refl := KeepsWork.refl
  trans := KeepsWork.trans
  pending _ _ := .of_work rfl
  outside _ _ := .of_work rfl
  freeCount _ _ := .of_work rfl
  advance _ _ := .of_work rfl
  reset := KeepsWork.toReset
  release _ _ _ := .of_work rfl
  happen s o := .of_keepsFlows (happen_keepsFlows s o)
  request s r _ := .of_keepsFlows (takeRequest_keepsFlows s r)
  untagged s := .of_work (requestWithoutTag_work s)
  unknown s := .of_work (unknownRequest_work s)
  reply s := .of_work (replyEnqueue_work s)
  alert s := .of_work (alertMove_work s)
  arrival s p frame := .of_keepsFlows ((KeepsFlows.arrival s frame p).trans (.of_work (trunkTakes_work _)))
  receptionError s p := .of_work (receptionError_work s p)
  attemptStart s p := .of_work (attemptStart_work s p)
  transmissionSuccess s p := .of_work (transmissionSuccess_work s p)
  arbitrationLost _ _ := .of_work rfl
  transmissionError s p := .of_keepsFlows ((KeepsFlows.transmissionError s p).trans (.of_work (trunkTakes_work _)))
  recoveryComplete s p := .of_work (recoveryComplete_work s p)
  pendingExpiry s f := .of_keepsFlows (.pendingExpiry s f)
  gapExpiry s f := .of_keepsFlows ((KeepsFlows.gapExpiry s f).trans (.of_work (trunkTakes_work _)))
  windowExpiry s := .of_keepsFlows (.windowExpiry s)
  flowSliceComplete s := (KeepsWork.flowSliceComplete s).trans (.of_work (trunkTakes_work _))
  imageSliceComplete s := .of_keepsFlows (.imageSliceComplete s)
  sampleTime s := .of_keepsFlows (.sampleTime s)
  conversionComplete s raw :=
    .of_keepsFlows ((KeepsFlows.conversionComplete s raw).trans (.of_work (trunkTakes_work _)))

/-- Settles O58, by the law of every step: each operation writes the context of one flow and keeps its rules, a closed window
leaves no flow at work, and a target is bound only when no flow is bound to it. -/
theorem flowsKept : Obligations.FlowsKept := by
  unfold Obligations.FlowsKept
  exact ⟨fun s s' ok h => (stepLaw_keepsWork.step h).flows ok,
    fun s s' ok once h => (stepLaw_keepsWork.step h).bound ok once⟩

/-- Settles O59, by the law of every step: a flow takes a free cell within its quota, gives all its cells up with its record,
or frees the head cell that its slice folded, and the next slice is of the head of a flow's cells. -/
theorem poolKept : Obligations.PoolKept := by
  unfold Obligations.PoolKept
  exact fun s s' ok pool h => (stepLaw_keepsWork.step h).pool ok pool

/-! ## The cells are conserved (R98) -/

theorem cells_toList (s : State) : s.cells.toList = (List.finRange 512).map s.cell := by
  refine List.ext_getElem ?_ fun k h₁ h₂ => ?_
  · rw [Vector.length_toList, List.length_map, List.length_finRange]
  · rw [Vector.getElem_toList, List.getElem_map, List.getElem_finRange]
    rfl

/-- The cells the flows hold, flow by flow. -/
def heldByFlows (s : State) : List CellId := allFlows.flatMap fun f => (s.flow f).heldCells

theorem length_heldByFlows (s : State) : (heldByFlows s).length = cellsHeld s := List.length_flatMap

theorem heldByFlows_nodup {s : State} (pool : PoolOk s) : (heldByFlows s).Nodup := by
  refine List.nodup_flatMap.mpr ⟨fun f _ => pool.once f, ?_⟩
  have distinct : allFlows.Pairwise (· ≠ ·) := by decide
  exact distinct.imp fun apart d hf hg => apart (pool.alone _ _ d hf hg)

theorem mem_heldByFlows {s : State} (pool : PoolOk s) (c : CellId) : c ∈ heldByFlows s ↔ (s.cell c).inUse = true := by
  rw [pool.inUse c, heldByFlows, List.mem_flatMap]
  exact ⟨fun ⟨f, _, mem⟩ => ⟨f, mem⟩, fun ⟨f, mem⟩ => ⟨f, mem_allFlows f, mem⟩⟩

/-- The cells in use are those the flows hold. -/
theorem countP_inUse {s : State} (pool : PoolOk s) : s.cells.toList.countP (·.inUse) = cellsHeld s := by
  have perm : ((List.finRange 512).filter fun c => (s.cell c).inUse).Perm (heldByFlows s) := by
    refine (List.perm_ext_iff_of_nodup ((List.nodup_finRange 512).filter _) (heldByFlows_nodup pool)).mpr fun c => ?_
    rw [mem_heldByFlows pool, List.mem_filter]
    exact and_iff_right (List.mem_finRange c)
  rw [← length_heldByFlows, ← perm.length_eq, cells_toList, List.countP_map, List.countP_eq_length_filter]
  rfl

theorem freeCells_add_cellsHeld {s : State} (pool : PoolOk s) : s.freeCells + cellsHeld s = 512 := by
  have all := List.length_eq_countP_add_countP (fun c : Cell => c.inUse) (l := s.cells.toList)
  rw [Vector.length_toList, countP_inUse pool] at all
  have free : s.freeCells = s.cells.toList.countP fun c => ¬c.inUse := by
    refine List.countP_congr fun c _ => ?_
    simp only [Bool.not_eq_true', Bool.not_eq_true, decide_eq_true_eq]
  omega

/-- Settles O60, by counting the cells in use flow by flow, and by the values of a reset. -/
theorem cellsConservedAndResetSound : Obligations.CellsConservedAndResetSound := by
  unfold Obligations.CellsConservedAndResetSound
  have reset : State.reset = resetWith [] [] 0 0 := rfl
  refine ⟨fun s pool => freeCells_add_cellsHeld pool, ?_⟩
  rw [reset]
  exact ⟨queuesOk_resetWith _ _ _ _, List.nodup_nil, CheckMem.wf_nil, idsDistinct_resetWith _ _ _ _,
    flowsOk_resetWith _ _ _ _, poolOk_resetWith _ _ _ _, gatesAscending_resetWith _ _ _ _,
    extentsOrdered_resetWith _ _ _ _, targetsBoundOnce_resetWith _ _ _ _, rfl⟩

end Sys2Proof.Proofs
end

section
/-! The step itself (log 2), the values of a reset and its release: O1, O2, O3 and O4 (R38, R158 and the values after a device reset). -/

namespace Sys2Proof.Proofs
open Sys2Proof.Machine

/-- Settles O1, by the definition of a step. -/
theorem stepRunsFrontCommand : Obligations.StepRunsFrontCommand := by
  unfold Obligations.StepRunsFrontCommand
  exact fun c s => rfl

/-! ## What no command changes (log 2) -/

/-- The model's own queues and its time. -/
def base (s : State) : List Instr × List Outside × Time := (s.pending, s.outside, s.now)

theorem base_of_kept {s u : State} (h : u.kept = s.kept) : base u = base s :=
  congrArg (fun k : Kept => (k.pending, k.outside, k.now)) h

theorem base_of_outer {s u : State} (h : u.outer = { s.outer with mgmt := u.mgmt }) : base u = base s :=
  congrArg (fun o : Outer => (o.pending, o.outside, o.now)) h

theorem base_of_sameOuter {s u : State} (h : u.outer = s.outer) : base u = base s :=
  congrArg (fun o : Outer => (o.pending, o.outside, o.now)) h

theorem imageSliceResult_base (s : State) (i : ImageId) (b : List Byte) (n : Nat) (e : Option FaultFlag) :
    base (s.imageSliceResult i b n e) = base s := by
  have fault (u : State) (k : FaultFlag) : base (u.selfCheckFault i k) = base u := by
    have ended : base ((u.raiseFault k).endSelfCheck i .defective 0 true) = base (u.raiseFault k) := rfl
    exact ended.trans (base_of_kept (u.raiseFault_kept k))
  have compare (u : State) : base (u.selfCheckCompare i) = base u := by
    unfold State.selfCheckCompare
    dsimp only
    split
    · exact fault u _
    · rfl
  unfold State.imageSliceResult
  dsimp only
  split
  · exact fault s _
  · split
    · exact fault s _
    · split
      · exact compare _
      · rfl

theorem imageSliceComplete_base (s : State) : base s.imageSliceComplete = base s := by
  unfold State.imageSliceComplete
  split
  · refine (base_of_kept (State.nextSlice_kept _)).trans ?_
    split
    · rfl
    · exact imageSliceResult_base s _ _ _ _
  · rfl
  · rfl

theorem windowExpiry_base (s : State) : base s.windowExpiry = base s := by
  unfold State.windowExpiry
  split
  · exact base_of_sameOuter (s.closeWindow_outer _)
  · rfl

theorem trunkTakes_base (s : State) : base s.trunkTakes = base s := base_of_outer s.trunkTakes_outer

theorem settle_base (s : State) : base s.settle = base s := base_of_outer s.settle_outer

theorem takeRequest_base (s : State) (r : Request) : base (s.takeRequest r (State.carry r)) = base s := by
  unfold State.takeRequest
  split
  · rfl
  · split
    · split
      · next frame _ _ _ =>
        dsimp only
        rw [trunkTakes_base, base_of_kept (State.reply_kept _ _ _), base_of_sameOuter (State.carry_outer _ _ _)]
        rfl
      · rw [base_of_kept (State.reply_kept _ _ _)]
        rfl
    · rfl

/-- What a command leaves: it goes on, with the model's queues as they are and a time that does not go back. -/
def LeavesQueues (s : State) (out : Host.Outcome State Fault Refusal) : Prop :=
  ∃ s', out = .next s' ∧ s'.pending = s.pending ∧ s'.outside = s.outside ∧ s.now ≤ s'.now

theorem leavesQueues_of_base {s u : State} {t : Time} (h : base u = base (s.advance t)) : LeavesQueues s (.next u) := by
  obtain ⟨pending, rest⟩ := Prod.ext_iff.mp h
  obtain ⟨outside, now⟩ := Prod.ext_iff.mp rest
  refine ⟨u, rfl, pending, outside, ?_⟩
  rw [show u.now = max s.now t from now]
  exact Nat.le_max_left _ _

theorem leavesQueues_event (s : State) (t : Time) {f : State → State} (h : ∀ u, base (f u) = base u) :
    LeavesQueues s (s.event t f) := by
  unfold State.event
  split
  · exact leavesQueues_of_base rfl
  · exact leavesQueues_of_base (h _)

theorem leavesQueues_settled (s : State) (t : Time) {f : State → State} (h : ∀ u, base (f u) = base u) :
    LeavesQueues s (s.settledEvent t f) := by
  have settled : base (s.settle.advance t) = base (s.advance t) := by
    obtain ⟨pending, rest⟩ := Prod.ext_iff.mp (settle_base s)
    obtain ⟨outside, now⟩ := Prod.ext_iff.mp rest
    simp only [base, State.advance, Prod.mk.injEq]
    exact ⟨pending, outside, congrArg (max · t) now⟩
  unfold State.settledEvent
  split
  · exact leavesQueues_of_base rfl
  · exact leavesQueues_of_base ((h _).trans settled)

theorem leavesQueues_asked (s : State) (t : Time) (r : Request) :
    LeavesQueues s (s.event t fun u => u.takeRequest r (State.carry r)) :=
  leavesQueues_event s t fun u => takeRequest_base u r

theorem leavesQueues_resetRelease (s : State) (t : Time) (straps : BitVec 3) :
    LeavesQueues s (execResetRelease t straps s) := by
  unfold execResetRelease
  split
  · exact leavesQueues_of_base rfl
  · exact leavesQueues_of_base rfl

theorem leavesQueues_exec (c : Instr) (s : State) : LeavesQueues s (exec c s) := by
  have traffic {u v : State} (h : v.kept = u.kept) : base v.trunkTakes = base u :=
    (trunkTakes_base v).trans (base_of_kept h)
  cases c with
  | deviceReset t => exact ⟨_, rfl, rfl, rfl, Nat.le_max_left _ _⟩
  | resetRelease t straps => exact leavesQueues_resetRelease s t straps
  | frameArrival t p frame => exact leavesQueues_settled s t fun u => traffic (u.arrival_kept p frame)
  | receptionError t p => exact leavesQueues_settled s t (f := (·.receptionError p)) fun u => base_of_kept (u.receptionError_kept p)
  | transmissionAttemptStart t p => exact leavesQueues_settled s t (f := (·.attemptStart p)) fun u => base_of_kept (u.attemptStart_kept p)
  | transmissionSuccess t p => exact leavesQueues_settled s t fun u => base_of_kept (u.transmissionSuccess_kept p)
  | arbitrationLost t p =>
    exact leavesQueues_settled s t (f := fun u => u.setPort p { u.port p with queue := unmark (u.port p).queue })
      fun u => rfl
  | transmissionError t p => exact leavesQueues_settled s t fun u => traffic (u.transmissionError_kept p)
  | recoveryComplete t p => exact leavesQueues_settled s t (f := (·.recoveryComplete p)) fun u => base_of_kept (u.recoveryComplete_kept p)
  | replyEnqueue t => exact leavesQueues_event s t fun u => base_of_kept u.replyEnqueue_kept
  | alertMove t => exact leavesQueues_event s t fun u => base_of_kept u.alertMove_kept
  | requestWithoutTag t => exact leavesQueues_event s t fun u => base_of_kept u.requestWithoutTag_kept
  | unknown t => exact leavesQueues_event s t fun u => base_of_kept u.unknownRequest_kept
  | status t => exact leavesQueues_asked s t .status
  | faultsClear t => exact leavesQueues_asked s t .faultsClear
  | portSet t => exact leavesQueues_asked s t .portSet
  | portRestart t => exact leavesQueues_asked s t .portRestart
  | routeWrite t => exact leavesQueues_asked s t .routeWrite
  | routeRead t => exact leavesQueues_asked s t .routeRead
  | routingEnable t => exact leavesQueues_asked s t .routingEnable
  | targetWrite t => exact leavesQueues_asked s t .targetWrite
  | targetRead t => exact leavesQueues_asked s t .targetRead
  | imageBegin t => exact leavesQueues_asked s t .imageBegin
  | imageRegion t => exact leavesQueues_asked s t .imageRegion
  | imageChecks t => exact leavesQueues_asked s t .imageChecks
  | imageEnd t => exact leavesQueues_asked s t .imageEnd
  | imageDiscard t => exact leavesQueues_asked s t .imageDiscard
  | imageQuery t => exact leavesQueues_asked s t .imageQuery
  | windowOpen t => exact leavesQueues_asked s t .windowOpen
  | windowRenew t => exact leavesQueues_asked s t .windowRenew
  | windowClose t => exact leavesQueues_asked s t .windowClose
  | flowBind t => exact leavesQueues_asked s t .flowBind
  | flowRelease t => exact leavesQueues_asked s t .flowRelease
  | flowHold t => exact leavesQueues_asked s t .flowHold
  | flowResume t => exact leavesQueues_asked s t .flowResume
  | flowQuery t => exact leavesQueues_asked s t .flowQuery
  | supplySet t => exact leavesQueues_asked s t .supplySet
  | supplyQuery t => exact leavesQueues_asked s t .supplyQuery
  | pendingDeadlineExpiry t f => exact leavesQueues_settled s t fun u => base_of_kept (u.pendingExpiry_kept f)
  | gapDeadlineExpiry t f => exact leavesQueues_settled s t fun u => traffic (u.gapExpiry_kept f)
  | windowExpiry t => exact leavesQueues_settled s t windowExpiry_base
  | flowSliceComplete t => exact leavesQueues_settled s t fun u => traffic u.flowSliceComplete_kept
  | imageSliceComplete t => exact leavesQueues_settled s t imageSliceComplete_base
  | sampleTime t => exact leavesQueues_settled s t fun u => base_of_kept u.sampleTime_kept
  | conversionComplete t raw => exact leavesQueues_settled s t fun u => traffic (u.conversionComplete_kept raw)

/-! ## A step on an empty queue of commands (log 2) -/

section
variable {s : State} (empty : s.pending = [])
include empty

theorem step_idle : step s = s.idle := by
  unfold step
  rw [empty]

theorem idle_released (out : s.resetHeld = false) :
    step s = match s.actions with
      | [] => .next s
      | [a] => s.act a
      | l => s.chooseAction l := by
  rw [step_idle empty]
  unfold State.idle
  exact if_neg (by rw [out]; exact Bool.false_ne_true)

end

/-- A free choice is one of the actions it is between. -/
theorem chooseAction_mem (s : State) {l : List Action} (some : l ≠ []) :
    ∃ a ∈ l, s.chooseAction l = ({ s with freeCount := s.freeCount + 1 } : State).act a := by
  have inside : Config.firstTaken s.freeCount % l.length < l.length := Nat.mod_lt _ (List.length_pos_iff.mpr some)
  refine ⟨l[Config.firstTaken s.freeCount % l.length], List.getElem_mem inside, ?_⟩
  unfold State.chooseAction
  rw [List.getElem?_eq_getElem inside]

theorem goesOn (s : State) : GoesOn s := by
  have acts (u : State) (a : Action) : ∃ s', u.act a = .next s' := by
    cases a with
    | command c =>
      obtain ⟨s', next, -⟩ := leavesQueues_exec c u
      exact ⟨s', next⟩
    | happening o => exact ⟨_, rfl⟩
  unfold GoesOn
  cases pending : s.pending with
  | cons c rest =>
    have front : step s = exec c { s with pending := rest } := by
      unfold step
      rw [pending]
    obtain ⟨s', next, -⟩ := leavesQueues_exec c { s with pending := rest }
    exact ⟨s', front.trans next⟩
  | nil =>
    cases held : s.resetHeld with
    | true =>
      refine ⟨s, ?_⟩
      rw [step_idle pending]
      exact if_pos held
    | false =>
      rw [idle_released pending held]
      split
      · exact ⟨s, rfl⟩
      · exact acts s _
      · next l notNil _ =>
        obtain ⟨a, -, chosen⟩ := chooseAction_mem s (l := s.actions) (by intro h; exact notNil h)
        rw [chosen]
        exact acts _ a

/-- The events that are due (log 2). -/
theorem mem_dueCommands (s : State) (c : Instr) : c ∈ s.dueCommands ↔
    (∃ frame, s.mgmt.slot = none ∧ s.mgmt.queue.head? = some frame ∧ c = frameCommand s.now frame)
    ∨ (c = .replyEnqueue s.now ∧ s.mgmt.slot ≠ none ∧ s.room .trunk (.generated .reply) = true)
    ∨ (c = .alertMove s.now ∧ s.alerts.entries ≠ [] ∧ s.alerts.inFlight = false
      ∧ s.room .trunk (.generated .alert) = true)
    ∨ (c = .windowExpiry s.now ∧ s.window.state = .opened ∧ ∃ e, s.window.expiry = some e ∧ e ≤ s.now)
    ∨ (∃ f q, c = .pendingDeadlineExpiry s.now f ∧ (s.flow f).pendingReq = some q ∧ q.deadline ≤ s.now)
    ∨ (∃ f p d, c = .gapDeadlineExpiry s.now f ∧ (s.flow f).record = some (.inspected p) ∧ p.gapDeadline = some d
      ∧ d ≤ s.now)
    ∨ (∃ p, c = .transmissionAttemptStart s.now p ∧ (s.port p).conf.carries = true ∧ (s.port p).queue ≠ []
      ∧ ∀ q ∈ (s.port p).queue, q.sending = false)
    ∨ (∃ p, c = .recoveryComplete s.now p ∧ (s.port p).conf = .recovering ∧ 128 ≤ (s.port p).recessiveRuns)
    ∨ (c = .sampleTime s.now ∧ s.supply.nextSample ≤ s.now) := by
  have taken : c ∈ (s.nextFrame.map (frameCommand s.now)).toList ↔
      ∃ frame, s.mgmt.slot = none ∧ s.mgmt.queue.head? = some frame ∧ c = frameCommand s.now frame := by
    rw [Option.mem_toList, Option.map_eq_some_iff]
    unfold State.nextFrame State.ready
    cases s.mgmt.slot with
    | none => simp [eq_comm]
    | some x => simp
  have pendings : c ∈ (allFlows.filter s.pendingDue).map (.pendingDeadlineExpiry s.now) ↔
      ∃ f q, c = .pendingDeadlineExpiry s.now f ∧ (s.flow f).pendingReq = some q ∧ q.deadline ≤ s.now := by
    simp only [List.mem_map, List.mem_filter, mem_allFlows, true_and, State.pendingDue_iff]
    exact ⟨fun ⟨f, ⟨q, h⟩, eq⟩ => ⟨f, q, eq.symm, h⟩, fun ⟨f, q, eq, h⟩ => ⟨f, ⟨q, h⟩, eq.symm⟩⟩
  have gaps : c ∈ (allFlows.filter s.gapDue).map (.gapDeadlineExpiry s.now) ↔
      ∃ f p d, c = .gapDeadlineExpiry s.now f ∧ (s.flow f).record = some (.inspected p) ∧ p.gapDeadline = some d
        ∧ d ≤ s.now := by
    simp only [List.mem_map, List.mem_filter, mem_allFlows, true_and, State.gapDue_iff]
    exact ⟨fun ⟨f, ⟨p, d, h⟩, eq⟩ => ⟨f, p, d, eq.symm, h⟩, fun ⟨f, p, d, eq, h⟩ => ⟨f, ⟨p, d, h⟩, eq.symm⟩⟩
  have attempts : c ∈ (allPorts.filter fun p => (s.port p).attemptDue).map (.transmissionAttemptStart s.now) ↔
      ∃ p, c = .transmissionAttemptStart s.now p ∧ (s.port p).conf.carries = true ∧ (s.port p).queue ≠ []
        ∧ ∀ q ∈ (s.port p).queue, q.sending = false := by
    simp only [List.mem_map, List.mem_filter, mem_allPorts, true_and, PortUnit.attemptDue_iff]
    exact ⟨fun ⟨p, h, eq⟩ => ⟨p, eq.symm, h⟩, fun ⟨p, eq, h⟩ => ⟨p, h, eq.symm⟩⟩
  have recoveries : c ∈ (allPorts.filter fun p => (s.port p).recovered).map (.recoveryComplete s.now) ↔
      ∃ p, c = .recoveryComplete s.now p ∧ (s.port p).conf = .recovering ∧ 128 ≤ (s.port p).recessiveRuns := by
    simp only [List.mem_map, List.mem_filter, mem_allPorts, true_and, PortUnit.recovered_iff]
    exact ⟨fun ⟨p, h, eq⟩ => ⟨p, eq.symm, h⟩, fun ⟨p, eq, h⟩ => ⟨p, h, eq.symm⟩⟩
  unfold State.dueCommands
  simp only [List.mem_append, taken, mem_dueIf, State.replyReady_iff, State.alertReady_iff, State.windowDue_iff,
    pendings, gaps, attempts, recoveries, State.sampleDue_iff, or_assoc]

/-- Which command takes a frame of the request queue (R160, R163). -/
theorem frameCommand_cases (t : Time) (frame : CanFrame) :
    (frame.data.length < 2 → frameCommand t frame = .requestWithoutTag t)
    ∧ (2 ≤ frame.data.length → Request.ofByte (byteAt frame.data 0) = none → frameCommand t frame = .unknown t)
    ∧ ∀ r, 2 ≤ frame.data.length → Request.ofByte (byteAt frame.data 0) = some r →
      frameCommand t frame = r.command t := by
  have long {h : 2 ≤ frame.data.length} : tagged frame = true := decide_eq_true h
  unfold frameCommand requestNamed
  refine ⟨fun short => ?_, fun h none => ?_, fun r h named => ?_⟩
  · rw [if_neg (by simpa [tagged] using short)]
  · rw [if_pos (long (h := h)), none]
  · rw [if_pos (long (h := h)), named]

/-- Settles O2, by cases over the commands, each of which leaves the model's queues, and over what is due on an empty queue. -/
theorem everyStepGoesOnAndIdleActs : Obligations.EveryStepGoesOnAndIdleActs := by
  unfold Obligations.EveryStepGoesOnAndIdleActs
  refine ⟨goesOn, leavesQueues_exec, fun s empty held => ?held, fun t frame => frameCommand_cases t frame,
    fun s empty out => ⟨mem_dueCommands s, fun none quiet => ?none, fun c one quiet => ?one, fun o rest none next => ?outside,
      fun two => ?choice⟩⟩
  case held =>
    rw [step_idle empty]
    exact if_pos held
  case none =>
    rw [idle_released empty out]
    unfold State.actions
    rw [none, quiet]
    rfl
  case one =>
    rw [idle_released empty out]
    unfold State.actions
    rw [one, quiet]
    rfl
  case outside =>
    rw [idle_released empty out]
    unfold State.actions
    rw [none, next]
    show Host.Outcome.next (State.happen { s.settle with outside := s.settle.outside.tail } o) = _
    rw [State.settle_outside, next]
    cases o <;> rfl
  case choice =>
    have length : s.actions.length = s.dueCommands.length + min 1 s.outside.length := by
      unfold State.actions
      rw [List.length_append, List.length_map, List.length_map]
      cases s.outside <;> simp
    rw [← length] at two
    have chosen : step s = s.chooseAction s.actions := by
      rw [idle_released empty out]
      split
      · next h => simp [h] at two
      · next h => simp [h] at two
      · rfl
    obtain ⟨a, mem, act⟩ := chooseAction_mem s (l := s.actions) (by
      intro h
      simp [h] at two)
    rw [chosen, act]
    unfold State.actions at mem
    simp only [List.mem_append, List.mem_map, Option.mem_toList] at mem
    obtain ⟨c, due, rfl⟩ | ⟨o, head, rfl⟩ := mem
    · exact Or.inl ⟨c, due, rfl⟩
    · obtain ⟨rest, next⟩ := List.head?_eq_some_iff.mp head
      refine Or.inr ⟨o, rest, next, ?_⟩
      show Host.Outcome.next (State.happen { State.settle _ with outside := (State.settle _).outside.tail } o) = _
      rw [State.settle_outside]
      simp only [next, List.tail_cons]
      cases o <;> rfl

/-! ## Reset and its release -/

/-- Settles O3, by the definition of the reset state. -/
theorem resetValues : Obligations.ResetValues := by
  have target (n : TargetId) : State.reset.target n = TargetEntry.reset := resetWith_target [] [] 0 0 n
  have flow (f : FlowId) : State.reset.flow f = FlowCtx.reset := resetWith_flow [] [] 0 0 f
  have port (p : Port) : State.reset.port p = PortUnit.reset := resetWith_port [] [] 0 0 p
  have cell (c : CellId) : State.reset.cell c = Cell.reset := resetWith_cell [] [] 0 0 c
  have route (n : RouteId) : State.reset.route n = RouteEntry.reset := by
    show (Vector.replicate 96 RouteEntry.reset).get n = _
    rw [Vector.get_eq_getElem, Vector.getElem_replicate]
  have image (i : ImageId) : State.reset.image i = ImageRecord.reset := by
    show (Vector.replicate 16 ImageRecord.reset).get i = _
    rw [Vector.get_eq_getElem, Vector.getElem_replicate]
  have slot (r : SlotId) : ImageRecord.reset.slots.get r = Slot.absent := by
    show (Vector.replicate 8 Slot.absent).get r = _
    rw [Vector.get_eq_getElem, Vector.getElem_replicate]
  unfold Obligations.ResetValues
  simp only [target, flow, port, cell, route, image, slot]
  exact ⟨⟨rfl, rfl⟩, fun _ => ⟨rfl, rfl, rfl, rfl, rfl, rfl, rfl, rfl⟩, fun _ => ⟨rfl, rfl, rfl, rfl, rfl, rfl, rfl, rfl⟩,
    fun _ => ⟨rfl, rfl, rfl, fun _ => rfl, rfl, rfl, rfl, rfl, rfl, rfl, rfl⟩, rfl, fun _ => rfl, fun _ => rfl, rfl, rfl,
    ⟨rfl, rfl, rfl, rfl, rfl, rfl, rfl⟩, fun _ => rfl, ⟨rfl, rfl⟩, ⟨rfl, rfl⟩, rfl⟩

/-- While RESET is held every other command changes only the time. -/
theorem exec_held {s : State} (held : s.resetHeld = true) (c : Instr) (reset : ∀ t, c ≠ .deviceReset t)
    (release : ∀ t k, c ≠ .resetRelease t k) : ∃ t, exec c s = .next { s with now := max s.now t } := by
  cases c with
  | deviceReset t => exact (reset t rfl).elim
  | resetRelease t straps => exact (release t straps rfl).elim
  | _ t => exact ⟨t, if_pos held⟩

/-- Settles O4, by cases over the commands. -/
theorem resetAndRelease : Obligations.ResetAndRelease := by
  unfold Obligations.ResetAndRelease
  exact ⟨fun s t => rfl, fun s t straps held => if_pos held,
    fun s t straps out => if_neg (by rw [out]; exact Bool.false_ne_true),
    fun s c held reset release => exec_held held c reset release⟩

end Sys2Proof.Proofs
end

section
/-! The port units (C8): errors that are counted, attempts and their ends, and the way into OFF and out of it: O5, O6 and O7
(R151 to R157, R161, R168). -/

namespace Sys2Proof.Proofs
open Sys2Proof.Machine

section
variable (s : State) (p : Port)

theorem setPort_setPort (u v : PortUnit) : (s.setPort p u).setPort p v = s.setPort p v := by
  unfold State.setPort
  rw [Ports.set_set]

/-! ## Counting errors (R151, R152) -/

theorem receptionError_of_carries (h : (s.port p).conf.carries = true) :
    s.receptionError p = s.setPort p { s.port p with
      rxErrors := min 255 ((s.port p).rxErrors + 1)
      conf := judgedState (s.port p).txErrors (min 255 ((s.port p).rxErrors + 1)) } := by
  unfold State.receptionError PortUnit.receiveFailed
  rw [if_pos h, PortUnit.judged_eq { s.port p with rxErrors := min 255 ((s.port p).rxErrors + 1) } h]

theorem receptionError_of_silent (h : (s.port p).conf.carries = false) : s.receptionError p = s := by
  unfold State.receptionError
  rw [if_neg (by rw [h]; exact Bool.false_ne_true)]

/-- An attempt that fails within the limit (R151, R152). -/
theorem transmissionError_counted (carries : (s.port p).conf.carries = true)
    (sending : ∃ q ∈ (s.port p).queue, q.sending = true) (low : (s.port p).txErrors + 8 ≤ 255) :
    s.transmissionError p = s.setPort p { s.port p with
      queue := unmark (s.port p).queue
      txErrors := (s.port p).txErrors + 8
      conf := judgedState ((s.port p).txErrors + 8) (s.port p).rxErrors } := by
  have judged := PortUnit.judged_eq (s.port p).sendFailed carries
  unfold State.transmissionError
  dsimp only
  rw [if_pos ((PortUnit.sendingFrame_isSome _).mpr sending), State.port_setPort, if_pos rfl,
    if_neg (by simpa [PortUnit.sendFailed] using low), judged, setPort_setPort]
  rfl

theorem sendingFrame_isSome_false (h : ∀ q ∈ (s.port p).queue, q.sending = false) :
    ¬ (s.port p).sendingFrame.isSome = true := by
  rw [PortUnit.sendingFrame_none _ h]
  exact Bool.false_ne_true

theorem transmissionError_of_quiet (h : ∀ q ∈ (s.port p).queue, q.sending = false) : s.transmissionError p = s := by
  unfold State.transmissionError
  rw [if_neg (sendingFrame_isSome_false s p h)]

/-- An attempt that fails past the limit sends its port to OFF (R152, R153). -/
theorem transmissionError_off (sending : ∃ q ∈ (s.port p).queue, q.sending = true)
    (high : 255 < (s.port p).txErrors + 8) :
    s.transmissionError p = (s.setPort p (s.port p).sendFailed).enterOff p := by
  have count : 255 < ((s.setPort p (s.port p).sendFailed).port p).txErrors := by
    rw [State.port_setPort, if_pos rfl]
    exact high
  unfold State.transmissionError
  dsimp only
  rw [if_pos ((PortUnit.sendingFrame_isSome _).mpr sending), if_pos count]

/-! ## Attempts (R151, R155) -/

theorem attemptStart_of_due {q : QueuedFrame} {rest : List QueuedFrame} (carries : (s.port p).conf.carries = true)
    (queue : (s.port p).queue = q :: rest) (quiet : ∀ x ∈ q :: rest, x.sending = false) :
    s.attemptStart p = s.setPort p { s.port p with queue := { q with sending := true } :: rest } := by
  have none : (s.port p).sendingFrame = none := PortUnit.sendingFrame_none _ (queue ▸ quiet)
  unfold State.attemptStart
  rw [if_pos (by rw [carries, none]; rfl), queue]
  rfl

theorem attemptStart_of_idle (h : (s.port p).conf.carries = false ∨ (s.port p).queue = []
    ∨ ∃ x ∈ (s.port p).queue, x.sending = true) : s.attemptStart p = s := by
  unfold State.attemptStart
  split
  · next due =>
    obtain ⟨carries, none⟩ := Bool.and_eq_true_iff.mp due
    obtain silent | empty | sending := h
    · cases carries.symm.trans silent
    · have same : { s.port p with queue := markHead (s.port p).queue } = s.port p := by
        rw [empty]
        exact congrArg (fun l => { s.port p with queue := l }) empty.symm
      rw [same, State.setPort_self]
    · have some := (PortUnit.sendingFrame_isSome _).mpr sending
      rw [← Option.not_isSome, some] at none
      cases none
  · rfl

theorem transmissionSuccess_of_quiet (h : ∀ q ∈ (s.port p).queue, q.sending = false) :
    s.transmissionSuccess p = s := by
  unfold State.transmissionSuccess
  rw [PortUnit.sendingFrame_none _ h]

/-- The marker of the alert in flight after frames left a queue (R168). -/
theorem clearInFlight_eq (l : List QueuedFrame) :
    s.clearInFlight l = { s with
      alerts := { s.alerts with
        inFlight := if ∃ q ∈ l, q.cls = .generated .alert then false else s.alerts.inFlight } } := by
  have marked : l.any (fun q => q.cls == .generated .alert) = true ↔ ∃ q ∈ l, q.cls = .generated .alert := by
    simp only [List.any_eq_true, beq_iff_eq]
  unfold State.clearInFlight
  by_cases h : ∃ q ∈ l, q.cls = .generated .alert
  · rw [if_pos (marked.mpr h), if_pos h]
  · rw [if_neg fun any => h (marked.mp any), if_neg h]

/-- The frame of a successful attempt leaves its queue (R151, R152). -/
theorem transmissionSuccess_of_sending {before after : List QueuedFrame} {q : QueuedFrame}
    (carries : (s.port p).conf.carries = true) (queue : (s.port p).queue = before ++ q :: after)
    (sending : q.sending = true) (quiet : ∀ x ∈ before, x.sending = false) :
    s.transmissionSuccess p =
      (s.setPort p { s.port p with
        queue := before ++ after
        txErrors := (s.port p).txErrors - 1
        conf := judgedState ((s.port p).txErrors - 1) (s.port p).rxErrors }).clearInFlight [q] := by
  have found : (s.port p).sendingFrame = some q := by
    unfold PortUnit.sendingFrame
    rw [queue, List.find?_append, List.find?_eq_none.mpr fun x mem => by rw [quiet x mem]; exact Bool.false_ne_true,
      List.find?_cons, sending]
    rfl
  have left : (s.port p).queue.eraseP (·.sending) = before ++ after := by
    rw [queue, List.eraseP_append_right _ fun x mem => by rw [quiet x mem]; exact Bool.false_ne_true,
      List.eraseP_cons_of_pos sending]
  have sent : (s.port p).sent = { s.port p with
      queue := before ++ after
      txErrors := (s.port p).txErrors - 1
      conf := judgedState ((s.port p).txErrors - 1) (s.port p).rxErrors } := by
    unfold PortUnit.sent
    rw [left]
    exact PortUnit.judged_eq _ carries
  unfold State.transmissionSuccess
  rw [found]
  dsimp only
  rw [sent]

end

/-- Settles O5, by the count of each kind of error and the state it is judged to. -/
theorem errorsAreCounted : Obligations.ErrorsAreCounted := by
  unfold Obligations.ErrorsAreCounted
  intro s t p running
  refine ⟨fun carries => ?_, fun silent => ?_, fun carries sending low => ?_, fun quiet => ?_⟩
  · rw [exec_receptionError s t p running, receptionError_of_carries (s.advance t) p carries]
    rfl
  · rw [exec_receptionError s t p running, receptionError_of_silent (s.advance t) p silent]
    rfl
  · rw [exec_transmissionError s t p running, transmissionError_counted (s.advance t) p carries sending low]
    exact congrArg _ (State.trunkTakes_nil _ running.offered)
  · rw [exec_transmissionError s t p running, transmissionError_of_quiet (s.advance t) p quiet]
    exact congrArg _ (State.trunkTakes_nil _ running.offered)

/-- Settles O6, by the look for the frame of the attempt in progress. -/
theorem attemptsAndSuccess : Obligations.AttemptsAndSuccess := by
  unfold Obligations.AttemptsAndSuccess
  refine ⟨fun s t p running => ⟨fun q rest carries queue quiet => ?_, fun idle => ?_, ?_, fun quiet => ?_⟩,
    fun s t p before after q running carries queue sending quiet => ?_⟩
  · rw [exec_transmissionAttemptStart s t p running, attemptStart_of_due (s.advance t) p carries queue quiet]
    rfl
  · rw [exec_transmissionAttemptStart s t p running, attemptStart_of_idle (s.advance t) p idle]
    rfl
  · rw [exec_arbitrationLost s t p running]
    rfl
  · rw [exec_transmissionSuccess s t p running, transmissionSuccess_of_quiet (s.advance t) p quiet]
    rfl
  · rw [exec_transmissionSuccess s t p running,
      transmissionSuccess_of_sending (s.advance t) p carries queue sending quiet, clearInFlight_eq]
    simp only [List.mem_singleton, exists_eq_left]
    rfl

/-! ## OFF and recovery (R153, R154) -/

section
variable (s : State) (p : Port)

theorem unmark_any_cls (l : List QueuedFrame) (k : QueueClass) :
    (∃ q ∈ unmark l, q.cls = k) ↔ ∃ q ∈ l, q.cls = k := by
  simp only [unmark, List.mem_map, exists_exists_and_eq_and]

/-- The queue and the marker of the alert in flight of a port whose attempt failed past the limit, before its state is
judged. -/
theorem emptyQueue_sendFailed :
    (s.setPort p (s.port p).sendFailed).emptyQueue p =
      { s with
        ports := s.ports.set p { s.port p with queue := [], txErrors := (s.port p).txErrors + 8 }
        alerts := { s.alerts with
          inFlight :=
            if ∃ q ∈ (s.port p).queue, q.cls = .generated .alert then false else s.alerts.inFlight } } := by
  unfold State.emptyQueue
  rw [clearInFlight_eq, setPort_setPort, State.port_setPort, if_pos rfl]
  simp only [PortUnit.sendFailed, unmark_any_cls]
  rfl

theorem allFlows_eq : allFlows = List.finRange 16 := by decide

/-- A segment port in OFF: its flows lose work, and then its state is judged (R153). -/
theorem enterOff_segment (segment : p ≠ .trunk) :
    s.enterOff p =
      let off := ((s.emptyQueue p).setPort p { (s.emptyQueue p).port p with conf := .off })
      let w := (List.finRange 16).foldl (State.portReadsFlow p) off
      w.setPort p ({ (s.emptyQueue p).port p with conf := .off } : PortUnit).off := by
  have reply (u : State) : u.dropReply p = u := by
    unfold State.dropReply
    split
    · exact (segment rfl).elim
    · rfl
  have flows (u : State) : u.flowsAfterEmptying p = (List.finRange 16).foldl (State.portReadsFlow p) u := by
    rw [← allFlows_eq]
    unfold State.flowsAfterEmptying
    split
    · exact (segment rfl).elim
    · rfl
  have port (u : State) : ((List.finRange 16).foldl (State.portReadsFlow p) u).port p = u.port p := by
    rw [State.port_eq, State.port_eq,
      foldl_view State.ports (State.portReadsFlow p) (fun v f => portReadsFlow_ports v p f) (List.finRange 16) u]
  unfold State.enterOff
  dsimp only
  rw [reply, flows, port, State.port_setPort, if_pos rfl]

theorem recoveryComplete_of_due (recovering : (s.port p).conf = .recovering)
    (runs : 128 ≤ (s.port p).recessiveRuns) :
    s.recoveryComplete p =
      s.setPort p { s.port p with txErrors := 0, rxErrors := 0, conf := .active, recessiveRuns := 0 } := by
  unfold State.recoveryComplete
  rw [if_pos ((PortUnit.recovered_iff _).mpr ⟨recovering, runs⟩)]
  rfl

theorem recoveryComplete_of_early (h : (s.port p).conf ≠ .recovering ∨ (s.port p).recessiveRuns < 128) :
    s.recoveryComplete p = s := by
  unfold State.recoveryComplete
  rw [if_neg fun due => ?_]
  obtain ⟨recovering, runs⟩ := (PortUnit.recovered_iff _).mp due
  obtain other | few := h
  · exact other recovering
  · exact absurd runs (not_le.mpr few)

/-- What a flow does when a port lost its queue (R153). -/
theorem portReadsFlow_cases (f : FlowId) :
    ((s.flow f).state = .free → State.portReadsFlow p s f = s)
    ∧ ∀ n, (s.flow f).state ≠ .free → (s.flow f).target = some n →
      ((s.target n).parityBad = true → State.portReadsFlow p s f = (s.raiseFault .target).failFlow f .tableFault)
      ∧ ((s.target n).parityBad = false → p ≠ (s.target n).segment.port → State.portReadsFlow p s f = s)
      ∧ ((s.target n).parityBad = false → p = (s.target n).segment.port →
        State.portReadsFlow p s f = s.loseWork f n) := by
  have read (n : TargetId) (bound : (s.flow f).state ≠ .free) (target : (s.flow f).target = some n) :
      State.portReadsFlow p s f =
        if (s.target n).parityBad then (s.raiseFault .target).failFlow f .tableFault
        else if s.segPort n = p then s.loseWork f n else s := by
    unfold State.portReadsFlow
    rw [if_neg bound, target]
  refine ⟨fun free => if_pos free, fun n bound target => ⟨fun bad => ?_, fun good other => ?_, fun good here => ?_⟩⟩
  · rw [read n bound target, if_pos bad]
  · rw [read n bound target, if_neg (by rw [good]; exact Bool.false_ne_true), if_neg fun same => other same.symm]
  · rw [read n bound target, if_neg (by rw [good]; exact Bool.false_ne_true)]
    exact if_pos here.symm

/-- The work a flow loses with its port (R153). -/
theorem loseWork_cases (f : FlowId) (n : TargetId) :
    (∀ x, (s.flow f).record = some (.inspected x) → s.loseWork f n = s.endBroken f n (s.flow f).held.isSome)
    ∧ (∀ g, (s.flow f).record = some (.gated g) →
      s.loseWork f n = (((s.freeFlowCells f).withdrawGate f).setRecord f none).refuse n g.code .broken 0x05)
    ∧ ((s.flow f).record = none ∨ (s.flow f).record = some .refused
        ∨ (∃ d k, (s.flow f).record = some (.passing d k)) → s.loseWork f n = s) := by
  unfold State.loseWork
  refine ⟨fun x record => ?_, fun g record => ?_, ?_⟩
  · rw [record]
    rfl
  · rw [record]
    rfl
  · rintro (record | record | ⟨d, k, record⟩) <;> rw [record]

end

/-- Settles O7, by following the port's own updates through the emptying of its queue and the flows that lose work. -/
theorem portsEnterAndLeaveOff : Obligations.PortsEnterAndLeaveOff := by
  unfold Obligations.PortsEnterAndLeaveOff
  refine ⟨fun s t running sending high => ?trunk, fun s t p running segment sending high => ?segment, fun s f p => ?flows,
    fun s t p running => ⟨fun recovering runs => ?due, fun early => ?early⟩⟩
  case trunk =>
    rw [exec_transmissionError s t .trunk running, transmissionError_off (s.advance t) .trunk sending high]
    unfold State.enterOff
    dsimp only
    rw [emptyQueue_sendFailed]
    exact congrArg _ (State.trunkTakes_nil _ running.offered)
  case segment =>
    rw [exec_transmissionError s t p running, transmissionError_off (s.advance t) p sending high]
    rw [enterOff_segment _ p segment, emptyQueue_sendFailed]
    cases p <;> rfl
  case flows =>
    obtain ⟨free, bound⟩ := portReadsFlow_cases s p f
    refine ⟨free, fun n notFree target => ?_⟩
    obtain ⟨bad, other, here⟩ := bound n notFree target
    obtain ⟨inspected, gated, light⟩ := loseWork_cases s f n
    exact ⟨bad, other, fun good same => ⟨fun x record => (here good same).trans (inspected x record),
      fun g record => (here good same).trans (gated g record), fun record => (here good same).trans (light record)⟩⟩
  case due =>
    rw [exec_recoveryComplete s t p running, recoveryComplete_of_due (s.advance t) p recovering runs]
    rfl
  case early =>
    rw [exec_recoveryComplete s t p running, recoveryComplete_of_early (s.advance t) p early]
    rfl

end Sys2Proof.Proofs
end

section
/-! Frames that arrive (C8): the identifier keys, management frames, PASSTHROUGH, the route table and damaged targets: O9, O10,
O11 and O12 (R20, R141 to R147, R151, R155, R158, R159). -/

namespace Sys2Proof.Proofs
open Sys2Proof.Machine

/-! ## Keys (R155) -/

theorem insertByKey_between (q : QueuedFrame) {before after : List QueuedFrame}
    (low : ∀ x ∈ before, idKey x.frame.id ≤ idKey q.frame.id)
    (high : ∀ x ∈ after, idKey q.frame.id < idKey x.frame.id) :
    insertByKey q (before ++ after) = before ++ q :: after := by
  induction before with
  | nil =>
    cases after with
    | nil => rfl
    | cons x rest => exact if_pos (high x List.mem_cons_self)
  | cons x rest ih =>
    have first : ¬ idKey q.frame.id < idKey x.frame.id := not_lt.mpr (low x List.mem_cons_self)
    rw [List.cons_append, insertByKey, if_neg first, ih fun y hy => low y (List.mem_cons_of_mem x hy)]
    rfl

/-- An ordered queue falls into the frames that stay before a new one and those that come after it. -/
theorem keysOrdered_split (q : QueuedFrame) {l : List QueuedFrame} (h : KeysOrdered l) :
    ∃ before after, l = before ++ after ∧ (∀ x ∈ before, idKey x.frame.id ≤ idKey q.frame.id)
      ∧ ∀ x ∈ after, idKey q.frame.id < idKey x.frame.id := by
  induction l with
  | nil => exact ⟨[], [], rfl, fun x hx => (List.not_mem_nil hx).elim, fun x hx => (List.not_mem_nil hx).elim⟩
  | cons x rest ih =>
    obtain ⟨first, tail⟩ := List.pairwise_cons.mp h
    by_cases low : idKey x.frame.id ≤ idKey q.frame.id
    · obtain ⟨before, after, eq, lower, higher⟩ := ih tail
      exact ⟨x :: before, after, by rw [eq]; rfl, List.forall_mem_cons.mpr ⟨low, lower⟩, higher⟩
    · refine ⟨[], x :: rest, rfl, fun y hy => (List.not_mem_nil hy).elim, List.forall_mem_cons.mpr ⟨not_le.mp low, ?_⟩⟩
      exact fun y hy => (not_le.mp low).trans_le (first y hy)

theorem idKey_base (a : BitVec 29) : idKey ⟨.base, a⟩ = (a.toNat % 2 ^ 11) * 2 ^ 19 := rfl

theorem idKey_extended (a : BitVec 29) :
    idKey ⟨.extended, a⟩ = (a.toNat / 2 ^ 18) * 2 ^ 19 + 2 ^ 18 + a.toNat % 2 ^ 18 := rfl

/-- Settles O9, by the split of an ordered queue at the new key and arithmetic on the keys. -/
theorem joinsInKeyOrder : Obligations.JoinsInKeyOrder := by
  unfold Obligations.JoinsInKeyOrder
  refine ⟨fun q l ordered => ?_, fun a b => ⟨fun smallA smallB => ?_, fun smallA => ?_, ?_⟩⟩
  · obtain ⟨before, after, rfl, low, high⟩ := keysOrdered_split q ordered
    exact ⟨before, after, rfl, insertByKey_between q low high, low, high⟩
  · rw [idKey_base, idKey_base]
    omega
  · rw [idKey_base, idKey_extended]
    omega
  · rw [idKey_extended, idKey_extended]
    omega

/-! ## The state an arrival finds (R151) -/

section
variable {s : State} {t : Time} {p : Port} (running : Running s) (carries : (s.port p).conf.carries = true)
include carries

/-- A port that received a frame has the queue it had, and carries traffic still. -/
theorem Received_port_view (q : Port) :
    ((Received s t p).port q).queue = (s.port q).queue
      ∧ ((Received s t p).port q).conf.carries = (s.port q).conf.carries := by
  have port : (Received s t p).port q = if q = p then { s.port p with
      rxErrors := (s.port p).rxErrors - 1
      conf := judgedState (s.port p).txErrors ((s.port p).rxErrors - 1) } else s.port q :=
    s.ports.get_set p q _
  rw [port]
  split
  · next same =>
    subst same
    exact ⟨rfl, by rw [carries]; unfold judgedState; split <;> rfl⟩
  · exact ⟨rfl, rfl⟩

theorem Received_room (q : Port) (k : QueueClass) : (Received s t p).room q k = s.room q k := by
  obtain ⟨queue, conf⟩ := Received_port_view (t := t) carries q
  unfold State.room PortUnit.withinShare PortUnit.plainCount PortUnit.forwardedCount
  rw [queue, conf]

include running

/-- At an arrival no reply and no alert can move. -/
theorem Received_quiet : (Received s t p).replyReady = false ∧ (Received s t p).alertReady = false := by
  have nothing := ((running_iff s).mp running).2.2
  obtain ⟨-, reply, alert⟩ := (State.atOnce_eq_nil s).mp nothing
  unfold State.replyReady State.alertReady at *
  rw [Received_room carries, Received_room carries]
  exact ⟨reply, alert⟩

/-- A frame at a port that carries traffic is counted and goes to the classifier (R151). -/
theorem exec_arrival (frame : CanFrame) :
    exec (.frameArrival t p frame) s = .next ((Received s t p).classify p frame).trunkTakes := by
  rw [exec_frameArrival _ _ running]
  have carries' : ((s.advance t).port p).conf.carries = true := carries
  unfold State.arrival
  rw [if_pos carries', ← received_eq s t p carries]
  rfl

end

/-- A frame at a port that carries no traffic is not received (R151). -/
theorem exec_arrival_silent {s : State} {p : Port} (t : Time) (running : Running s)
    (silent : (s.port p).conf.carries = false) (frame : CanFrame) :
    exec (.frameArrival t p frame) s = .next { s with now := max s.now t } := by
  rw [exec_frameArrival _ _ running]
  have silent' : ¬ ((s.advance t).port p).conf.carries = true := by
    rw [show ((s.advance t).port p).conf.carries = false from silent]
    exact Bool.false_ne_true
  unfold State.arrival
  rw [if_neg silent']
  exact congrArg _ (State.trunkTakes_nil _ running.offered)

/-! ## Management frames and PASSTHROUGH (R142, R143, R159) -/

theorem requestId_ne (strap : BitVec 3) : replyId strap ≠ requestId strap ∧ alertId strap ≠ requestId strap := by
  revert strap
  decide

section
variable (s : State) (p : Port) (frame : CanFrame)

theorem classify_management (h : frame.id ∈ managementIds s.strap) :
    s.classify p frame = s.managementFrame p frame := if_pos h

theorem managementFrame_joins (request : frame.id = requestId s.strap) (trunk : p = .trunk)
    (room : s.mgmt.queue.length < 4) :
    s.managementFrame p frame = { s with mgmt := { s.mgmt with queue := s.mgmt.queue ++ [frame] } } := by
  unfold State.managementFrame State.joinRequests
  rw [if_pos ⟨request, trunk⟩]
  exact if_pos room

theorem managementFrame_dropped (h : p ≠ .trunk ∨ 4 ≤ s.mgmt.queue.length) : s.managementFrame p frame = s := by
  unfold State.managementFrame State.joinRequests
  split
  · next taken =>
    obtain other | full := h
    · exact (other taken.2).elim
    · exact if_neg (not_lt.mpr full)
  · rfl

theorem managementFrame_other (h : frame.id = replyId s.strap ∨ frame.id = alertId s.strap) :
    s.managementFrame p frame = s := by
  have other : frame.id ≠ requestId s.strap := by
    obtain eq | eq := h
    · rw [eq]
      exact (requestId_ne _).1
    · rw [eq]
      exact (requestId_ne _).2
  exact if_neg fun taken => other taken.1

theorem classify_passthrough (outside : frame.id ∉ managementIds s.strap) (mode : s.mode = .passthrough) :
    s.classify p frame = s.offerPlain (portsBut p) frame := by
  unfold State.classify
  rw [if_neg outside, mode]

end

/-- The management identifiers hold the request, reply and alert identifiers of a strap (R158). -/
theorem mem_managementIds (strap : BitVec 3) (i : CanId) :
    i ∈ managementIds strap ↔ i = requestId strap ∨ i = replyId strap ∨ i = alertId strap := by
  simp only [managementIds, List.mem_cons, List.not_mem_nil, or_false]

/-- A plain frame that is offered to some ports alone in its event joins or is dropped at each (R143, R156). -/
theorem offerPlain_trunkTakes {s : State} {t : Time} {p : Port} (running : Running s)
    (carries : (s.port p).conf.carries = true) (egress : Port → Bool) (frame : CanFrame) :
    ((Received s t p).offerPlain (allPorts.filter egress) frame).trunkTakes =
      OfferedTo (Received s t p) egress frame := by
  obtain ⟨reply, alert⟩ := Received_quiet (t := t) running carries
  rw [State.offerPlain_eq (Received s t p) egress frame running.offered,
    offeredInEvent_quiet (Received s t p) egress frame running.offered reply alert]

/-- Settles O10, by the classifier's first question and, in PASSTHROUGH, the offer to every other port. -/
theorem managementAndPassthroughArrivals : Obligations.ManagementAndPassthroughArrivals := by
  unfold Obligations.ManagementAndPassthroughArrivals
  refine ⟨fun s t p frame running => ⟨fun carries trunk request room => ?joins, fun carries request h => ?dropped,
    fun carries h => ?other, fun silent => exec_arrival_silent t running silent frame⟩,
    fun s t p frame running mode carries outside => ?passthrough, fun strap => ⟨rfl, rfl, rfl, rfl⟩⟩
  case joins =>
    rw [exec_arrival running carries, classify_management (Received s t p) p frame ((mem_managementIds _ _).mpr (Or.inl request)),
      managementFrame_joins (Received s t p) p frame request trunk room]
    exact congrArg _ (State.trunkTakes_nil _ running.offered)
  case dropped =>
    rw [exec_arrival running carries, classify_management (Received s t p) p frame ((mem_managementIds _ _).mpr (Or.inl request)),
      managementFrame_dropped (Received s t p) p frame h]
    exact congrArg _ (State.trunkTakes_nil _ running.offered)
  case other =>
    rw [exec_arrival running carries, classify_management (Received s t p) p frame ((mem_managementIds _ _).mpr (Or.inr h)),
      managementFrame_other (Received s t p) p frame h]
    exact congrArg _ (State.trunkTakes_nil _ running.offered)
  case passthrough =>
    rw [exec_arrival running carries, classify_passthrough (Received s t p) p frame outside mode]
    exact congrArg _ (offerPlain_trunkTakes running carries (fun q => q != p) frame)

/-! ## The route table (R145 to R147) -/

theorem hits_iff (e : RouteEntry) (p : Port) (id : CanId) : e.hits p id = true ↔ RouteHit e p id := by
  unfold RouteEntry.hits RouteHit
  rw [Bool.and_eq_true, Bool.and_eq_true, beq_iff_eq, beq_iff_eq, and_assoc]

/-- A route that the lookup passes over unchanged. -/
def Passed (s : State) (p : Port) (id : CanId) (q : RouteId) : Prop :=
  (s.route q).state = .valid → (s.route q).parityBad = false ∧ ¬ RouteHit (s.route q) p id

section
variable {s : State} {p : Port} {id : CanId}

theorem lookup_passed {q : RouteId} (passed : Passed s p id q) (l : List RouteId) :
    s.lookup p id (q :: l) = s.lookup p id l := by
  rw [State.lookup]
  split
  · next valid =>
    obtain ⟨good, miss⟩ := passed valid
    rw [if_neg (by rw [good]; exact Bool.false_ne_true), if_neg fun hit => miss ((hits_iff _ _ _).mp hit)]
  · rfl

theorem lookup_passed_append {before : List RouteId} (passed : ∀ q ∈ before, Passed s p id q) (l : List RouteId) :
    s.lookup p id (before ++ l) = s.lookup p id l := by
  induction before with
  | nil => rfl
  | cons q rest ih =>
    rw [List.cons_append, lookup_passed (passed q List.mem_cons_self),
      ih fun r mem => passed r (List.mem_cons_of_mem q mem)]

theorem lookup_all_passed {l : List RouteId} (passed : ∀ q ∈ l, Passed s p id q) : s.lookup p id l = (s, none) := by
  have whole := lookup_passed_append passed []
  rwa [List.append_nil] at whole

theorem lookup_hit {r : RouteId} (valid : (s.route r).state = .valid) (good : (s.route r).parityBad = false)
    (hit : RouteHit (s.route r) p id) (l : List RouteId) : s.lookup p id (r :: l) = (s, some (s.route r)) := by
  rw [State.lookup, if_pos valid, if_neg (by rw [good]; exact Bool.false_ne_true), if_pos ((hits_iff _ _ _).mpr hit)]

/-- A damaged entry is marked, and the lookup goes on (R145). -/
theorem lookup_damaged {r : RouteId} (valid : (s.route r).state = .valid) (bad : (s.route r).parityBad = true)
    (l : List RouteId) : s.lookup p id (r :: l) =
      State.lookup ((s.setRoute r { s.route r with state := .damaged }).raiseFault .route) p id l := by
  rw [State.lookup, if_pos valid, if_pos bad]

end

/-- The entries before one and after it (R145). -/
theorem finRange_split (r : RouteId) : ∃ before after, List.finRange 96 = before ++ r :: after
    ∧ (∀ q ∈ before, q < r) ∧ (∀ q ∈ after, r < q) ∧ after.Pairwise (· < ·) := by
  obtain ⟨before, after, eq⟩ := List.append_of_mem (List.mem_finRange r)
  have sorted : (List.finRange 96).Pairwise (· < ·) := List.pairwise_lt_finRange 96
  rw [eq, List.pairwise_append, List.pairwise_cons] at sorted
  obtain ⟨-, ⟨above, rest⟩, below⟩ := sorted
  exact ⟨before, after, eq, fun q mem => below q mem r List.mem_cons_self, above, rest⟩

theorem sorted_split {l : List RouteId} (sorted : l.Pairwise (· < ·)) {k : RouteId} (mem : k ∈ l) :
    ∃ before after, l = before ++ k :: after ∧ ∀ q ∈ before, q < k := by
  obtain ⟨before, after, eq⟩ := List.append_of_mem mem
  rw [eq, List.pairwise_append] at sorted
  obtain ⟨-, -, below⟩ := sorted
  exact ⟨before, after, eq, fun q mem => below q mem k List.mem_cons_self⟩

section
variable {s : State} {p : Port} {id : CanId}

/-- The first entry that hits decides (R145). -/
theorem lookup_first {r : RouteId} (valid : (s.route r).state = .valid) (good : (s.route r).parityBad = false)
    (hit : RouteHit (s.route r) p id) (first : ∀ q, q < r → Passed s p id q) :
    s.lookup p id allRoutes = (s, some (s.route r)) := by
  obtain ⟨before, after, eq, low, -⟩ := finRange_split r
  rw [allRoutes, eq, lookup_passed_append (fun q mem => first q (low q mem)), lookup_hit valid good hit]

/-- The state with one damaged entry marked (R145). -/
def routeMarked (s : State) (r : RouteId) : State :=
  (s.setRoute r { s.route r with state := .damaged }).raiseFault .route

theorem raiseFault_route (u : State) (k : FaultFlag) (q : RouteId) : (u.raiseFault k).route q = u.route q := by
  unfold State.raiseFault
  split <;> rfl

theorem routeMarked_route (r q : RouteId) :
    (routeMarked s r).route q = if q = r then { s.route r with state := .damaged } else s.route q := by
  rw [routeMarked, raiseFault_route, State.route_setRoute]

theorem passed_routeMarked {r q : RouteId} (other : q ≠ r) (passed : Passed s p id q) :
    Passed (routeMarked s r) p id q := by
  unfold Passed
  rw [routeMarked_route, if_neg other]
  exact passed

/-- A damaged entry before the one that hits. -/
theorem lookup_marked_first {r k : RouteId} (valid : (s.route r).state = .valid)
    (bad : (s.route r).parityBad = true) (later : r < k) (validK : (s.route k).state = .valid)
    (good : (s.route k).parityBad = false) (hit : RouteHit (s.route k) p id)
    (first : ∀ q, q < k → q ≠ r → Passed s p id q) :
    s.lookup p id allRoutes = (routeMarked s r, some (s.route k)) := by
  obtain ⟨before, after, eq, low, high, sorted⟩ := finRange_split r
  have mem : k ∈ after := by
    have all : k ∈ before ++ r :: after := eq ▸ List.mem_finRange k
    obtain early | here := List.mem_append.mp all
    · exact absurd (low k early) later.asymm
    · exact (List.mem_cons.mp here).resolve_left later.ne'
  obtain ⟨middle, rest, split, lower⟩ := sorted_split sorted mem
  have same : (routeMarked s r).route k = s.route k := by rw [routeMarked_route, if_neg later.ne']
  have passedEarly : ∀ q ∈ before, Passed s p id q :=
    fun q mem => first q ((low q mem).trans later) (low q mem).ne
  have passedMiddle : ∀ q ∈ middle, Passed (routeMarked s r) p id q := fun q mem => by
    have above : r < q := high q (split ▸ List.mem_append_left _ mem)
    exact passed_routeMarked above.ne' (first q (lower q mem) above.ne')
  rw [allRoutes, eq, lookup_passed_append passedEarly, lookup_damaged valid bad]
  show State.lookup (routeMarked s r) p id after = _
  rw [split, lookup_passed_append passedMiddle, lookup_hit (same.symm ▸ validK) (same.symm ▸ good) (same.symm ▸ hit), same]

/-- A damaged entry, and no other that hits. -/
theorem lookup_marked_none {r : RouteId} (valid : (s.route r).state = .valid)
    (bad : (s.route r).parityBad = true) (others : ∀ q, q ≠ r → Passed s p id q) :
    s.lookup p id allRoutes = (routeMarked s r, none) := by
  obtain ⟨before, after, eq, low, high, -⟩ := finRange_split r
  rw [allRoutes, eq, lookup_passed_append fun q mem => others q (low q mem).ne, lookup_damaged valid bad]
  exact lookup_all_passed fun q mem => passed_routeMarked (high q mem).ne' (others q (high q mem).ne')

end

/-- The ports a plain route sends a frame to (R145). -/
theorem egressPorts_plain (d : DefaultAction) (p : Port) {e : RouteEntry} (plain : e.cls ≠ .blocked) :
    egressPorts d p (some e) = allPorts.filter fun q => q != p && e.egress.has q := by
  cases cls : e.cls with
  | blocked => exact (plain cls).elim
  | plain =>
    simp only [egressPorts, portsBut, cls, List.filter_filter, Bool.and_comm]

theorem egressPorts_blocked (d : DefaultAction) (p : Port) {e : RouteEntry} (blocked : e.cls = .blocked) :
    egressPorts d p (some e) = [] := by
  simp only [egressPorts, blocked]

theorem egressPorts_drop (d : DefaultAction) (p : Port) (h : d = .drop) : egressPorts d p none = [] := by
  rw [h]
  rfl

theorem egressPorts_flood (d : DefaultAction) (p : Port) (h : d ≠ .drop) :
    egressPorts d p none = allPorts.filter fun q => q != p := by
  cases d with
  | drop => exact (h rfl).elim
  | flood => rfl

section
variable {s : State} {t : Time} {p : Port} {frame : CanFrame} (h : RoutingArrival s p frame)
include h

/-- A frame that names no target goes by the routes (R145). -/
theorem exec_routed
    (unnamed : ∀ m, (s.target m).state = .valid → (s.target m).request ≠ frame.id ∧ (s.target m).response ≠ frame.id) :
    exec (.frameArrival t p frame) s = .next ((Received s t p).routeFrame p frame).trunkTakes := by
  rw [exec_routingArrival _ t h, requestTarget_none s fun m valid => (unnamed m valid).1]
  dsimp only
  rw [responseTarget_none s fun m valid => (unnamed m valid).2]

end

/-- Settles O11, by the search for the first route that hits. -/
theorem routesDecide : Obligations.RoutesDecide := by
  unfold Obligations.RoutesDecide
  intro s t p frame arrival unnamed
  refine ⟨fun r valid good hit first => ?_, fun none => ?_⟩
  · have found : (Received s t p).lookup p frame.id allRoutes = (Received s t p, some (s.route r)) :=
      lookup_first (s := Received s t p) valid good hit first
    rw [exec_routed arrival unnamed]
    unfold State.routeFrame
    dsimp only
    rw [found]
    split
    · next blocked =>
      rw [egressPorts_blocked _ _ blocked]
      exact congrArg _ (State.trunkTakes_nil _ arrival.running.offered)
    · next plain =>
      rw [egressPorts_plain _ _ plain]
      exact congrArg _ (offerPlain_trunkTakes arrival.running arrival.carries _ frame)
  · have found : (Received s t p).lookup p frame.id allRoutes = (Received s t p, Option.none) :=
      lookup_all_passed (s := Received s t p) fun q _ => none q
    rw [exec_routed arrival unnamed]
    unfold State.routeFrame
    dsimp only
    rw [found]
    dsimp only
    split
    · next drop =>
      rw [egressPorts_drop (Received s t p).defaultAction p drop]
      exact congrArg _ (State.trunkTakes_nil _ arrival.running.offered)
    · next flood =>
      rw [egressPorts_flood (Received s t p).defaultAction p flood]
      exact congrArg _ (offerPlain_trunkTakes arrival.running arrival.carries _ frame)

/-! ## Damaged entries (R24, R144) -/

section
variable {s : State} {t : Time} {p : Port}

theorem routeMarked_offers (r : RouteId) (u : State) : (routeMarked u r).offers = u.offers := by
  rw [routeMarked, State.raiseFault_offers]
  rfl

theorem routeMarked_defaultAction (r : RouteId) (u : State) : (routeMarked u r).defaultAction = u.defaultAction :=
  congrArg Kept.defaultAction (State.raiseFault_kept _ _)

/-- One damaged target entry is what the classifier finds. -/
theorem classify_damaged {frame : CanFrame} {n : TargetId} (mode : s.mode = .routing)
    (outside : frame.id ∉ managementIds s.strap) (valid : (s.target n).state = .valid)
    (bad : (s.target n).parityBad = true)
    (others : ∀ m, m ≠ n → (s.target m).state = .valid → (s.target m).parityBad = false) :
    s.classify p frame = s.classifierFault n := by
  unfold State.classify
  rw [if_neg outside, mode]
  dsimp only
  unfold State.routingFrame
  rw [damagedTargets_one s valid bad others]
  rfl

theorem classifierFault_unbound {n : TargetId} (unbound : Unbound s n) :
    s.classifierFault n = s.raiseFault .target := by
  have none : (s.raiseFault .target).boundFlow n = none :=
    (boundFlow_congr s (congrArg Work.flows (raiseFault_work s .target)) n).trans ((boundFlow_none s).mpr unbound)
  unfold State.classifierFault
  dsimp only
  rw [none]

theorem classifierFault_bound {f : FlowId} {n : TargetId} (bound : BoundTo s f n) :
    s.classifierFault n = (s.raiseFault .target).failFlow f .tableFault := by
  have some : (s.raiseFault .target).boundFlow n = some f :=
    (boundFlow_congr s (congrArg Work.flows (raiseFault_work s .target)) n).trans (boundFlow_some s bound)
  unfold State.classifierFault
  dsimp only
  rw [some]

end

/-- Settles O12, by the search past a damaged route, the classifier's look for damaged targets, and the port of a dialogue. -/
theorem arrivalsDroppedOrDamaged : Obligations.ArrivalsDroppedOrDamaged := by
  unfold Obligations.ArrivalsDroppedOrDamaged
  refine ⟨⟨fun s t p frame r arrival unnamed valid bad => ⟨fun k later validK good hit first => ?hit, fun others => ?miss⟩,
    fun s t p frame n running mode carries outside valid bad others => ⟨fun unbound => ?unbound, fun f bound => ?bound⟩⟩,
    fun s t p frame n arrival h => ?port⟩
  case hit =>
    have found : (Received s t p).lookup p frame.id allRoutes =
        (routeMarked (Received s t p) r, some (s.route k)) :=
      lookup_marked_first (s := Received s t p) valid bad later validK good hit first
    have offers : (routeMarked (Received s t p) r).offers = [] := (routeMarked_offers r _).trans arrival.running.offered
    rw [exec_routed arrival unnamed]
    unfold State.routeFrame
    dsimp only
    rw [found]
    split
    · next blocked =>
      rw [egressPorts_blocked _ _ blocked]
      exact congrArg _ (State.trunkTakes_nil _ offers)
    · next plain =>
      rw [egressPorts_plain _ _ plain, State.offerPlain_eq _ _ frame offers]
      rfl
  case miss =>
    have found : (Received s t p).lookup p frame.id allRoutes = (routeMarked (Received s t p) r, Option.none) :=
      lookup_marked_none (s := Received s t p) valid bad others
    have offers : (routeMarked (Received s t p) r).offers = [] := (routeMarked_offers r _).trans arrival.running.offered
    rw [exec_routed arrival unnamed]
    unfold State.routeFrame
    dsimp only
    rw [found]
    dsimp only
    rw [routeMarked_defaultAction]
    split
    · next drop =>
      rw [egressPorts_drop (Received s t p).defaultAction p drop]
      exact congrArg _ (State.trunkTakes_nil _ offers)
    · next flood =>
      rw [egressPorts_flood (Received s t p).defaultAction p flood, State.offerPlain_eq _ _ frame offers]
      rfl
  case unbound =>
    rw [exec_arrival running carries, classify_damaged (s := Received s t p) mode outside valid bad others,
      classifierFault_unbound (s := Received s t p) unbound]
    exact congrArg _ (State.trunkTakes_nil _ ((State.raiseFault_offers _ _).trans running.offered))
  case bound =>
    rw [exec_arrival running carries, classify_damaged (s := Received s t p) mode outside valid bad others,
      classifierFault_bound (s := Received s t p) ⟨bound.bound, bound.target, bound.only⟩]
    exact congrArg _ (State.trunkTakes_nil _
      ((State.failFlow_offers _ _ _).trans ((State.raiseFault_offers _ _).trans running.offered)))
  case port =>
    rw [exec_routingArrival _ t arrival]
    obtain ⟨request, other⟩ | ⟨response, other⟩ := h
    · rw [requestTarget_some s request]
      dsimp only
      rw [if_neg other]
      exact congrArg _ (State.trunkTakes_nil _ arrival.running.offered)
    · rw [requestTarget_none s response.noRequest]
      dsimp only
      rw [responseTarget_some s response]
      dsimp only
      rw [if_neg other]
      exact congrArg _ (State.trunkTakes_nil _ arrival.running.offered)

end Sys2Proof.Proofs
end

section
/-! Dialogue request frames at a tracker (C4), and the parts of a frame: O13 (R2, R6, R68, R70, R71). -/

namespace Sys2Proof.Proofs
open Sys2Proof.Machine

/-! ## A dialogue request without a bound flow in an OPEN window (R68, R70, R71) -/

section
variable {s : State} {t : Time} {frame : CanFrame} {n : TargetId}

theorem dialogueRequest_untracked (h : s.window.state = .closed ∨ Unbound s n) :
    s.dialogueRequest n frame = s.trackerTakes n frame := by
  unfold State.dialogueRequest
  obtain closed | unbound := h
  · rw [closed]
  · rw [(boundFlow_none s).mpr unbound]
    cases s.window.state <;> rfl

theorem exec_trackerArrival (arrival : RoutingArrival s .trunk frame) (request : RequestOf s frame n)
    (h : s.window.state = .closed ∨ Unbound s n) :
    exec (.frameArrival t .trunk frame) s = .next ((Received s t .trunk).trackerTakes n frame).trunkTakes := by
  rw [exec_routingArrival s t arrival, requestTarget_some s request]
  exact congrArg (fun u => Host.Outcome.next (State.trunkTakes u)) (dialogueRequest_untracked h)

theorem trackerTakes_first (first : frameKind frame = .whole ∨ frameKind frame = .opener) :
    s.trackerTakes n frame = s.trackerFirst n frame := by
  unfold State.trackerTakes
  obtain whole | opener := first
  · rw [whole]
  · rw [opener]

theorem trackerTakes_carrier (carrier : frameKind frame = .carrier) :
    s.trackerTakes n frame = s.trackerCarrier n frame := by
  unfold State.trackerTakes
  rw [carrier]

theorem trackerTakes_pace (pace : frameKind frame = .pace) :
    s.trackerTakes n frame = s.offer (s.target n).segment.port .dialogue frame := by
  unfold State.trackerTakes
  rw [pace]
  rfl

theorem trackerReason_eq (s : State) :
    s.trackerReason = if s.window.state = .closed then .windowClosed else .unbound := by
  unfold State.trackerReason
  cases s.window.state <;> rfl

theorem trackerFirst_update (update : (UpdateCode.ofByte (requestCode frame)).isSome = true) :
    s.trackerFirst n frame =
      (s.refuse n (requestCode frame) (if s.window.state = .closed then .windowClosed else .unbound) 0).setTracker n
        (if frameKind frame = .opener then .refused else .none) := by
  unfold State.trackerFirst
  rw [if_pos update, trackerReason_eq]
  rfl

theorem trackerFirst_forwarded (other : (UpdateCode.ofByte (requestCode frame)).isSome = false)
    (wellFormed : firstMalformed frame = false) (room : s.room (s.target n).segment.port .dialogue = true) :
    s.trackerFirst n frame = (Enqueued s (s.target n).segment.port .dialogue frame).setTracker n
      (if frameKind frame = .opener then .passing else .none) := by
  unfold State.trackerFirst
  rw [if_neg (Bool.eq_false_iff.mp other), if_neg (Bool.eq_false_iff.mp wellFormed)]
  exact if_pos room

theorem trackerFirst_dropped (other : (UpdateCode.ofByte (requestCode frame)).isSome = false)
    (h : firstMalformed frame = true ∨ s.room (s.target n).segment.port .dialogue = false) :
    s.trackerFirst n frame = s.setTracker n (if frameKind frame = .opener then .refused else .none) := by
  unfold State.trackerFirst
  rw [if_neg (Bool.eq_false_iff.mp other)]
  obtain malformed | full := h
  · rw [if_pos malformed]
    rfl
  · split
    · rfl
    · exact if_neg (Bool.eq_false_iff.mp full)

theorem trackerCarrier_other (h : (s.target n).tracker ≠ .passing) : s.trackerCarrier n frame = s := by
  unfold State.trackerCarrier
  cases eq : (s.target n).tracker with
  | none => rfl
  | refused => rfl
  | passing => exact (h eq).elim

theorem carrierUnreadable_iff (frame : CanFrame) :
    carrierUnreadable frame = true ↔ frame.fd = false ∨ frame.data = [] := by
  unfold carrierUnreadable
  rw [Bool.or_eq_true, Bool.not_eq_true', List.isEmpty_iff]

theorem trackerCarrier_unreadable (passing : (s.target n).tracker = .passing)
    (h : frame.fd = false ∨ frame.data = []) : s.trackerCarrier n frame = s.setTracker n .none := by
  unfold State.trackerCarrier
  rw [passing]
  exact if_pos ((carrierUnreadable_iff frame).mpr h)

theorem trackerCarrier_readable (passing : (s.target n).tracker = .passing) (fd : frame.fd = true)
    (data : frame.data ≠ []) :
    s.trackerCarrier n frame = if s.room (s.target n).segment.port .dialogue then
      Enqueued s (s.target n).segment.port .dialogue frame else s.setTracker n .refused := by
  have readable : ¬ carrierUnreadable frame = true := fun h => by
    obtain classical | empty := (carrierUnreadable_iff frame).mp h
    · rw [fd] at classical
      exact absurd classical (by decide)
    · exact data empty
  unfold State.trackerCarrier
  rw [passing]
  exact if_neg readable

end

/-! ## The parts of a frame (R2 to R6) -/

section
variable {frame : CanFrame}

theorem frameKind_cons {c : Byte} {rest : List Byte} (data : frame.data = c :: rest) :
    frameKind frame = match c.getLsbD 7, c.getLsbD 6 with
      | false, false => .whole
      | false, true => .opener
      | true, false => .carrier
      | true, true => .pace := by
  have size : c.toNat < 256 := c.isLt
  have seven : c.getLsbD 7 = decide (c.toNat / 128 % 2 = 1) := Nat.testBit_eq_decide_div_mod_eq
  have six : c.getLsbD 6 = decide (c.toNat / 64 % 2 = 1) := Nat.testBit_eq_decide_div_mod_eq
  have halves : c.toNat / 128 = c.toNat / 64 / 2 := by omega
  have quarter : c.toNat / 64 < 4 := by omega
  unfold frameKind
  rw [data, seven, six, halves]
  dsimp only
  generalize c.toNat / 64 = q at quarter ⊢
  interval_cases q <;> rfl

theorem rollIndex_toNat (frame : CanFrame) : (rollIndex frame).toNat = (byteAt frame.data 0).toNat % 64 :=
  BitVec.toNat_setWidth 6 _

theorem rollIndex_ne_zero_iff (frame : CanFrame) :
    (rollIndex frame != 0) = true ↔ (byteAt frame.data 0).toNat % 64 ≠ 0 := by
  rw [bne_iff_ne, ← rollIndex_toNat, ne_eq, ne_eq, not_iff_not, ← BitVec.toNat_inj]
  rfl

theorem wholeMalformed_iff (frame : CanFrame) :
    wholeMalformed frame = true ↔ (byteAt frame.data 0).toNat % 64 ≠ 0 ∨ (byteAt frame.data 1).toNat = 0
      ∨ 62 < (byteAt frame.data 1).toNat ∨ frame.data.length < (byteAt frame.data 1).toNat + 2 := by
  unfold wholeMalformed wholeLength
  rw [Bool.or_eq_true, Bool.or_eq_true, Bool.or_eq_true, rollIndex_ne_zero_iff, beq_iff_eq, decide_eq_true_iff,
    decide_eq_true_iff, or_assoc, or_assoc]

/-- Two bytes of a frame's data, most significant first. -/
theorem fieldAt_two {d : List Byte} {k : Nat} (size : k + 2 ≤ d.length) :
    fieldAt d k 2 = 2 ^ 8 * (byteAt d k).toNat + (byteAt d (k + 1)).toNat := by
  induction k generalizing d with
  | zero =>
    match d, size with
    | a :: b :: rest, _ => simp [fieldAt, beNat, byteAt]
  | succ k ih =>
    cases d with
    | nil => exact absurd size (by simp)
    | cons a rest => exact ih (Nat.le_of_succ_le_succ (by rwa [List.length_cons, Nat.add_right_comm] at size))

/-- Four bytes of a frame's data, most significant first. -/
theorem fieldAt_four {d : List Byte} {k : Nat} (size : k + 4 ≤ d.length) :
    fieldAt d k 4 = 2 ^ 24 * (byteAt d k).toNat + 2 ^ 16 * (byteAt d (k + 1)).toNat
      + 2 ^ 8 * (byteAt d (k + 2)).toNat + (byteAt d (k + 3)).toNat := by
  induction k generalizing d with
  | zero =>
    match d, size with
    | a :: b :: c :: e :: rest, _ =>
      simp only [fieldAt, beNat, byteAt, List.drop_zero, List.take_succ_cons, List.take_zero, List.foldl_cons, List.foldl_nil,
        List.getD_cons_zero, List.getD_cons_succ, Nat.zero_add]
      omega
  | succ k ih =>
    cases d with
    | nil => exact absurd size (by simp)
    | cons a rest => exact ih (Nat.le_of_succ_le_succ (by rwa [List.length_cons, Nat.add_right_comm] at size))

theorem openerMalformed_iff (frame : CanFrame) :
    openerMalformed frame = true ↔ (byteAt frame.data 0).toNat % 64 ≠ 0 ∨ frame.data.length ≠ 64
      ∨ 256 * (byteAt frame.data 1).toNat + (byteAt frame.data 2).toNat < 63
      ∨ 8190 < 256 * (byteAt frame.data 1).toNat + (byteAt frame.data 2).toNat := by
  unfold openerMalformed openerLength
  rw [Bool.or_eq_true, Bool.or_eq_true, Bool.or_eq_true, rollIndex_ne_zero_iff, bne_iff_ne, decide_eq_true_iff,
    decide_eq_true_iff, or_assoc, or_assoc]
  by_cases size : frame.data.length = 64
  · have declared : fieldAt frame.data 1 2 = 256 * (byteAt frame.data 1).toNat + (byteAt frame.data 2).toNat :=
      fieldAt_two (by omega)
    rw [declared]
  · simp only [size, ne_eq, not_false_eq_true, true_or, or_true]

theorem firstMalformed_whole (whole : frameKind frame = .whole) :
    firstMalformed frame = true ↔ frame.fd = false ∨ wholeMalformed frame = true := by
  unfold firstMalformed
  rw [whole, Bool.or_eq_true, Bool.not_eq_true']

theorem firstMalformed_opener (opener : frameKind frame = .opener) :
    firstMalformed frame = true ↔ frame.fd = false ∨ openerMalformed frame = true := by
  unfold firstMalformed
  rw [opener, Bool.or_eq_true, Bool.not_eq_true']

theorem payloadStart_whole (whole : frameKind frame = .whole) : payloadStart frame = 2 := by
  unfold payloadStart
  rw [whole]

theorem payloadStart_opener (opener : frameKind frame = .opener) : payloadStart frame = 3 := by
  unfold payloadStart
  rw [opener]

theorem parcelLength_whole (whole : frameKind frame = .whole) : parcelLength frame = (byteAt frame.data 1).toNat := by
  unfold parcelLength
  rw [whole]
  rfl

theorem parcelLength_opener (opener : frameKind frame = .opener) : parcelLength frame = openerLength frame := by
  unfold parcelLength
  rw [opener]

/-- A well-formed OPENER has 64 bytes. -/
theorem opener_size (opener : frameKind frame = .opener) (wellFormed : firstMalformed frame = false) :
    frame.data.length = 64 := by
  by_contra size
  have malformed : firstMalformed frame = true :=
    (firstMalformed_opener opener).mpr (Or.inr ((openerMalformed_iff frame).mpr (Or.inr (Or.inl size))))
  rw [malformed] at wellFormed
  exact absurd wellFormed (by decide)

end

/-- Settles O13, by the tracker's branches one by one, and bit arithmetic on a frame's first bytes. -/
theorem trackerTakesRequests : Obligations.TrackerTakesRequests := by
  unfold Obligations.TrackerTakesRequests
  refine ⟨fun s t frame n arrival request untracked => ?tracker, fun frame => ⟨fun empty => ?empty, fun c rest => frameKind_cons,
    rollIndex_toNat frame, fun whole => ?whole, fun opener => ?opener⟩⟩
  case tracker =>
    have offersNil : (Received s t .trunk).offers = [] := arrival.running.offered
    rw [exec_trackerArrival arrival request untracked]
    refine ⟨fun first update => ?update, fun first other wellFormed room => ?forwarded, fun first other h => ?dropped,
      fun carrier h => ?idle, fun carrier passing h => ?unreadable, fun carrier passing fd data => ?readable,
      fun pace => ?pace⟩
    case update => rw [trackerTakes_first first, trackerFirst_update update]; rfl
    case forwarded =>
      rw [trackerTakes_first first, trackerFirst_forwarded (s := Received s t .trunk) other wellFormed room]
      exact congrArg _ (State.trunkTakes_nil _ offersNil)
    case dropped =>
      rw [trackerTakes_first first, trackerFirst_dropped (s := Received s t .trunk) other h]
      exact congrArg _ (State.trunkTakes_nil _ offersNil)
    case idle =>
      rw [trackerTakes_carrier carrier, trackerCarrier_other (s := Received s t .trunk) h]
      exact congrArg _ (State.trunkTakes_nil _ offersNil)
    case unreadable =>
      rw [trackerTakes_carrier carrier, trackerCarrier_unreadable (s := Received s t .trunk) passing h]
      exact congrArg _ (State.trunkTakes_nil _ offersNil)
    case readable =>
      rw [trackerTakes_carrier carrier, trackerCarrier_readable (s := Received s t .trunk) passing fd data]
      refine congrArg _ (State.trunkTakes_nil _ ?_)
      split <;> exact offersNil
    case pace =>
      rw [trackerTakes_pace pace]
      exact congrArg _ (State.trunkTakes_nil _ ((State.offer_offers _ _ _ _).trans offersNil))
  case empty =>
    unfold frameKind
    rw [empty]
  case whole =>
    refine ⟨(firstMalformed_whole whole).trans (or_congr Iff.rfl (wholeMalformed_iff frame)), ?_, parcelLength_whole whole⟩
    rw [requestCode, payloadStart_whole whole]
  case opener =>
    refine ⟨(firstMalformed_opener opener).trans (or_congr Iff.rfl (openerMalformed_iff frame)), ?_, fun wellFormed => ?_⟩
    · rw [requestCode, payloadStart_opener opener]
    · have declared : openerLength frame = _ := fieldAt_two (by rw [opener_size opener wellFormed]; decide)
      exact ⟨(parcelLength_opener opener).trans declared, declared⟩

end Sys2Proof.Proofs
end

section
/-! Reports and the ends of parcels: the alert queue, fault flags, refusals, the pool, the entry to FAILED and parcels that end
silently: O14, O15, O16 and O17 (R11, R63, R64, R73, R89, R97, R99, R101, R167, R171). -/

namespace Sys2Proof.Proofs
open Sys2Proof.Machine

/-! ## Alerts and fault flags (R167, R171) -/

theorem putAlert_fresh (a : Alert) {l : List Alert} (fresh : ∀ x ∈ l, x.key ≠ a.key) : putAlert a l = l ++ [a] := by
  induction l with
  | nil => rfl
  | cons x rest ih =>
    rw [putAlert, if_neg (fresh x List.mem_cons_self), ih fun y mem => fresh y (List.mem_cons_of_mem x mem)]
    rfl

theorem putAlert_replaces (a x : Alert) {before : List Alert} (after : List Alert) (same : x.key = a.key)
    (fresh : ∀ y ∈ before, y.key ≠ a.key) : putAlert a (before ++ x :: after) = before ++ a :: after := by
  induction before with
  | nil => exact if_pos same
  | cons y rest ih =>
    rw [List.cons_append, putAlert, if_neg (fresh y List.mem_cons_self),
      ih fun z mem => fresh z (List.mem_cons_of_mem y mem)]
    rfl

theorem faultFlags_get_set (f : FaultFlags) (k j : FaultFlag) : (f.set k).get j = (f.get j || decide (j = k)) := by
  cases k <;> cases j <;> simp [FaultFlags.set, FaultFlags.get]

theorem faultFlags_line_iff (f : FaultFlags) : f.line = true ↔ ∃ k, f.get k = true := by
  unfold FaultFlags.line
  simp only [Bool.or_eq_true]
  constructor
  · rintro ((((route | target) | image) | checklist) | cell)
    exacts [⟨.route, route⟩, ⟨.target, target⟩, ⟨.image, image⟩, ⟨.checklist, checklist⟩, ⟨.cell, cell⟩]
  · rintro ⟨k, set⟩
    cases k with
    | route => exact Or.inl (Or.inl (Or.inl (Or.inl set)))
    | target => exact Or.inl (Or.inl (Or.inl (Or.inr set)))
    | image => exact Or.inl (Or.inl (Or.inr set))
    | checklist => exact Or.inl (Or.inr set)
    | cell => exact Or.inr set

/-! ## Frames the part generates for TRUNK (R17, R97, R156) -/

/-- A frame that a running event offers alone joins or is dropped (R97, R156). -/
theorem offerTrunk_trunkTakes {s : State} (running : Running s) (k : QueueClass) (frame : CanFrame) :
    (s.offerTrunk k frame).trunkTakes = s.offer .trunk k frame := by
  obtain ⟨-, offersNil, nothing⟩ := (running_iff s).mp running
  obtain ⟨-, reply, alert⟩ := (State.atOnce_eq_nil s).mp nothing
  have one : (s.offerTrunk k frame).offers = [⟨k, frame, false⟩] := by
    show s.offers ++ [_] = _
    rw [offersNil]
    rfl
  have quiet : (s.offerTrunk k frame).contested = false := State.contested_quiet _ reply alert
  have emptied : { s.offerTrunk k frame with offers := [] } = s := by rw [← offersNil]; rfl
  rw [State.trunkTakes_one _ one quiet, emptied]

theorem refuse_eq (s : State) (n : TargetId) (code : Byte) (reason : Reason) (detail : Byte) :
    s.refuse n code reason detail = s.offerTrunk (.generated .refusal)
      ⟨(s.target n).response, true, true, [0x00, 0x04, 0xF1, code, reason.code, detail]⟩ := rfl

/-- Settles O14, by the recursion of the alert queue, the fault flags one by one, and the one frame a refusal offers. -/
theorem reportsQueued : Obligations.ReportsQueued := by
  unfold Obligations.ReportsQueued
  refine ⟨⟨fun a l => putAlert_fresh a, fun a x before after => putAlert_replaces a x after, fun s k set => if_pos set,
    fun s k clear => if_neg (Bool.eq_false_iff.mp clear), faultFlags_get_set, faultFlags_line_iff, fun a => ?key⟩,
    fun s n code reason detail => ⟨?code, refuse_eq s n code reason detail, fun k frame => rfl, fun none => if_pos none,
      fun waiting => if_neg waiting, fun running room => ?joins, fun running full => ?dropped⟩⟩
  case key => cases a <;> rfl
  case code => cases reason <;> decide
  case joins => rw [refuse_eq, offerTrunk_trunkTakes running, offer_of_room _ room]
  case dropped => rw [refuse_eq, offerTrunk_trunkTakes running, offer_of_no_room _ full]

/-! ## The pool (R99, R101) -/

section
variable (s : State) (f : FlowId)

theorem cellFor_eq_some_iff (c : CellId) : s.cellFor f = some c ↔ CellGiven s f c := by
  constructor
  · intro given
    obtain ⟨quota, unused, lowest⟩ := cellFor_some given
    exact ⟨quota, unused, lowest⟩
  · rintro ⟨quota, unused, lowest⟩
    exact (if_neg (not_le.mpr quota)).trans ((State.lowestFree_some s c).mpr ⟨unused, lowest⟩)

theorem exists_lowestFree {d : CellId} (unused : (s.cell d).inUse = false) : ∃ c, s.lowestFree = some c := by
  obtain ⟨c, free, lowest⟩ := WellFounded.has_min (r := (· < · : CellId → CellId → Prop)) wellFounded_lt
    {c | (s.cell c).inUse = false} ⟨d, unused⟩
  refine ⟨c, (State.lowestFree_some s c).mpr ⟨free, fun e below => ?_⟩⟩
  exact Bool.eq_true_of_not_eq_false fun unusedE => lowest e unusedE below

theorem lowestFree_none_iff : s.lowestFree = none ↔ ∀ c, (s.cell c).inUse = true := by
  constructor
  · intro exhausted c
    by_contra used
    obtain ⟨d, some⟩ := exists_lowestFree s (Bool.eq_false_of_not_eq_true used)
    rw [exhausted] at some
    cases some
  · intro used
    cases found : s.lowestFree with
    | none => rfl
    | some c =>
      obtain ⟨unused, -⟩ := (State.lowestFree_some s c).mp found
      rw [used c] at unused
      cases unused

theorem cellFor_eq_none_iff : s.cellFor f = none ↔
    (s.flow f).params.cellQuota ≤ (s.flow f).heldCells.length ∨ ∀ c, (s.cell c).inUse = true := by
  unfold State.cellFor
  split
  · next quota => exact iff_of_true rfl (Or.inl quota)
  · next quota => exact (lowestFree_none_iff s).trans (or_iff_right quota).symm

end

/-- Settles O15, by the search for the lowest free cell and the cells after freeing. -/
theorem poolGivesAndTakes : Obligations.PoolGivesAndTakes := by
  unfold Obligations.PoolGivesAndTakes
  refine ⟨cellFor_eq_some_iff, cellFor_eq_none_iff, fun s f => ⟨_, State.freeFlowCells_eq s f, ?_⟩⟩
  exact foldl_freeCell_cell s _

/-! ## Entry to FAILED (R63, R64) -/

section
variable (s : State) (f : FlowId)

theorem withdraw_eq (c : Converter) : c.withdraw f = match c with
    | .idle => .idle
    | .converting done served => .converting done (served.filter (· != f)) := by
  cases c <;> rfl

/-- Withdrawing a gate request writes the supply alone (R136). -/
theorem withdrawGate_eq : s.withdrawGate f =
    { s with
      supply :=
        { s.supply with
          waiting := s.supply.waiting.filter (· != f)
          converter :=
            match s.supply.converter with
            | .idle => .idle
            | .converting done served => .converting done (served.filter (· != f)) } } :=
  congrArg (fun c => { s with supply := { s.supply with waiting := s.supply.waiting.filter (· != f), converter := c } })
    (withdraw_eq f s.supply.converter)

/-- A flow's context is written after its cells are free, its slice is abandoned and its gate request is withdrawn. -/
theorem clearedWork_setFlow (d : FlowCtx) : (((s.freeFlowCells f).abandonFlowSlice f).withdrawGate f).setFlow f d =
    { s with
      flows := s.flows.set f d
      cells := ((s.flow f).heldCells.foldl State.freeCell s).cells
      engine := s.engine.map fun x =>
        match x.work with
        | .flow g _ _ => if g = f then { x with abandoned := true } else x
        | .image _ _ _ _ => x
      supply :=
        { s.supply with
          waiting := s.supply.waiting.filter (· != f)
          converter :=
            match s.supply.converter with
            | .idle => .idle
            | .converting done served => .converting done (served.filter (· != f)) } } := by
  rw [withdrawGate_eq, State.abandonFlowSlice_eq, State.freeFlowCells_eq]
  simp only [State.setFlow, Vector.set_set] <;> rfl

theorem clearedWork_flow : (((s.freeFlowCells f).abandonFlowSlice f).withdrawGate f).flow f =
    { s.flow f with fifo := [], held := none } := by
  rw [withdrawGate_eq]
  show ((s.freeFlowCells f).abandonFlowSlice f).flow f = _
  rw [State.abandonFlowSlice_flow, State.freeFlowCells_flow, if_pos rfl]

theorem failFlow_of_not_atWork (k : Condition) (idle : (s.flow f).state.atWork = false) : s.failFlow f k = s :=
  if_neg (Bool.eq_false_iff.mp idle)

theorem flowAlert_of_binding (before : HoldCauses) {b : Binding} (binding : (s.flow f).binding = some b) :
    s.flowAlert f before = s.queueAlert (.flow f ((s.flow f).report b before)) := by
  unfold State.flowAlert
  rw [binding]

variable {s f} in
/-- A bound flow at work that enters FAILED, in one update. -/
theorem failFlow_of_atWork (k : Condition) {b : Binding} (working : (s.flow f).state.atWork = true)
    (binding : (s.flow f).binding = some b) : s.failFlow f k =
      ((((s.freeFlowCells f).abandonFlowSlice f).withdrawGate f).setFlow f
        (({ s.flow f with fifo := [], held := none } : FlowCtx).failed k)).queueAlert
          (.flow f ((({ s.flow f with fifo := [], held := none } : FlowCtx).failed k).report b (s.flow f).holds)) := by
  have written (u : State) (d : FlowCtx) : (u.setFlow f d).flow f = d := by rw [State.flow_setFlow, if_pos rfl]
  unfold State.failFlow
  dsimp only
  rw [if_pos working, State.mapFlow, clearedWork_flow, flowAlert_of_binding (b := b), written]
  rw [written]
  exact binding

end

/-- Settles O16, by the one update that an entry to FAILED is. -/
theorem entryToFailed : Obligations.EntryToFailed := by
  unfold Obligations.EntryToFailed
  refine ⟨failFlow_of_not_atWork, fun s f k b working binding =>
    ⟨((s.flow f).heldCells.foldl State.freeCell s).cells, ?fails, ?cells⟩, fun s f => ?counts⟩
  case fails =>
    rw [failFlow_of_atWork k working binding, clearedWork_setFlow]
    rfl
  case cells => exact foldl_freeCell_cell s _
  case counts =>
    unfold State.countFailure
    dsimp only
    rw [State.flow_mapFlow, if_pos rfl]
    rfl

/-! ## Parcels that end silently (R7, R73, R113) -/

section
variable (s : State) (f : FlowId)

theorem replaceRecord_inspected {p : Inspected} (h : (s.flow f).record = some (.inspected p)) :
    s.replaceRecord f = ((((s.freeFlowCells f).abandonFlowSlice f).setVerdict f .broken).setRecord f none) := by
  unfold State.replaceRecord
  rw [h]
  rfl

theorem replaceRecord_gated {g : Gated} (h : (s.flow f).record = some (.gated g)) :
    s.replaceRecord f = (((s.freeFlowCells f).withdrawGate f).setRecord f none) := by
  unfold State.replaceRecord
  rw [h]
  rfl

theorem replaceRecord_passing {d m : Nat} (h : (s.flow f).record = some (.passing d m)) :
    s.replaceRecord f = s.setRecord f none := by
  unfold State.replaceRecord
  rw [h]

theorem replaceRecord_refused (h : (s.flow f).record = some .refused) : s.replaceRecord f = s.setRecord f none := by
  unfold State.replaceRecord
  rw [h]

theorem replaceRecord_none (h : (s.flow f).record = none) : s.replaceRecord f = s := by
  unfold State.replaceRecord
  rw [h]

theorem refusalEndsRecord_inspected {p : Inspected} (h : (s.flow f).record = some (.inspected p))
    (notHeld : (s.flow f).held = none) : s.refusalEndsRecord f =
      ((((s.freeFlowCells f).abandonFlowSlice f).setVerdict f .broken).setRecord f (some .refused)) := by
  unfold State.refusalEndsRecord FlowCtx.finalTaken
  rw [h, notHeld]
  rfl

theorem refusalEndsRecord_passing {d m : Nat} (h : (s.flow f).record = some (.passing d m)) :
    s.refusalEndsRecord f = s.setRecord f (some .refused) := by
  unfold State.refusalEndsRecord
  rw [h]

theorem refusalEndsRecord_other (h : (s.flow f).record = none ∨ (s.flow f).record = some .refused
    ∨ (∃ g, (s.flow f).record = some (.gated g))
    ∨ (∃ p, (s.flow f).record = some (.inspected p) ∧ (s.flow f).held.isSome = true)) : s.refusalEndsRecord f = s := by
  unfold State.refusalEndsRecord
  obtain h | h | ⟨g, h⟩ | ⟨p, h, held⟩ := h
  · rw [h]
  · rw [h]
  · rw [h]
  · rw [h]
    exact if_pos held

theorem targetRefusal_unbound {n : TargetId} (h : Unbound s n) : s.targetRefusal n = s.setTracker n .none := by
  have none : (s.setTracker n .none).boundFlow n = Option.none :=
    (boundFlow_congr s (u := s.setTracker n .none) rfl n).trans ((boundFlow_none s).mpr h)
  unfold State.targetRefusal
  dsimp only
  rw [none]

variable {f} in
theorem targetRefusal_bound {n : TargetId} (h : BoundTo s f n) :
    s.targetRefusal n = (s.setTracker n .none).refusalEndsRecord f := by
  have some : (s.setTracker n .none).boundFlow n = Option.some f :=
    (boundFlow_congr s (u := s.setTracker n .none) rfl n).trans (boundFlow_some s h)
  unfold State.targetRefusal
  dsimp only
  rw [some]

end

/-- Settles O17, by the record a flow holds. -/
theorem parcelsEndSilently : Obligations.ParcelsEndSilently := by
  unfold Obligations.ParcelsEndSilently
  refine ⟨fun s f => ⟨State.abandonFlowSlice_eq s f, withdrawGate_eq s f⟩,
    fun s f => ⟨fun p => replaceRecord_inspected s f, fun g => replaceRecord_gated s f, fun d m => replaceRecord_passing s f,
      replaceRecord_refused s f, replaceRecord_none s f⟩,
    fun s n => ⟨targetRefusal_unbound s, fun f bound => ?_⟩⟩
  dsimp only
  rw [targetRefusal_bound s bound]
  exact ⟨fun p => refusalEndsRecord_inspected (s.setTracker n .none) f,
    fun d m => refusalEndsRecord_passing (s.setTracker n .none) f, refusalEndsRecord_other (s.setTracker n .none) f⟩

end Sys2Proof.Proofs
end

section
/-! The admission checks of an update request (C4): O18, O19, O20, O21 and O22 (R26, R76 to R84, R93, R99, R136). -/

namespace Sys2Proof.Proofs
open Sys2Proof.Machine

/-! ## The common checks (R76) -/

section
variable {u : State} {f : FlowId} {n : TargetId} {frame : CanFrame} {c : UpdateCode}

theorem judgeAdmission_ended (ended : (u.flow f).state = .done ∨ (u.flow f).state = .failed) :
    u.judgeAdmission f n frame c = RefusedFirst u f n frame .ended 0 := if_pos ended

variable (working : (u.flow f).state ≠ .done ∧ (u.flow f).state ≠ .failed)
include working

theorem judgeAdmission_working : u.judgeAdmission f n frame c =
    if (u.flow f).holds.supply then u.refuseFirst f n frame .supply 0x00
    else if (u.flow f).holds.master then u.refuseFirst f n frame .held 0x00
    else if (u.flow f).pendingReq.isSome then u.refuseFirst f n frame .overlap 0x00
    else if !(u.flow f).state.takes c then u.refuseFirst f n frame .order 0x00
    else if firstMalformed frame then u.brokenFirst f n frame c
    else if illFormed c frame then u.refuseFirst f n frame .layout 0x00
    else u.admitSpecific f n frame c :=
  if_neg (not_or.mpr working)

theorem judgeAdmission_supply (supply : (u.flow f).holds.supply = true) :
    u.judgeAdmission f n frame c = RefusedFirst u f n frame .supply 0 := by
  rw [judgeAdmission_working working, if_pos supply]
  rfl

theorem judgeAdmission_held (held : (u.flow f).holds = ⟨true, false⟩) :
    u.judgeAdmission f n frame c = RefusedFirst u f n frame .held 0 := by
  rw [judgeAdmission_working working, held]
  rfl

variable (unheld : (u.flow f).holds = ⟨false, false⟩)
include unheld

theorem judgeAdmission_unheld : u.judgeAdmission f n frame c =
    if (u.flow f).pendingReq.isSome then u.refuseFirst f n frame .overlap 0x00
    else if !(u.flow f).state.takes c then u.refuseFirst f n frame .order 0x00
    else if firstMalformed frame then u.brokenFirst f n frame c
    else if illFormed c frame then u.refuseFirst f n frame .layout 0x00
    else u.admitSpecific f n frame c := by
  rw [judgeAdmission_working working, unheld]
  rfl

theorem judgeAdmission_overlap (pending : (u.flow f).pendingReq.isSome = true) :
    u.judgeAdmission f n frame c = RefusedFirst u f n frame .overlap 0 := by
  rw [judgeAdmission_unheld working unheld, if_pos pending]
  rfl

variable (settled : (u.flow f).pendingReq = none)
include settled

theorem judgeAdmission_settled : u.judgeAdmission f n frame c =
    if !(u.flow f).state.takes c then u.refuseFirst f n frame .order 0x00
    else if firstMalformed frame then u.brokenFirst f n frame c
    else if illFormed c frame then u.refuseFirst f n frame .layout 0x00
    else u.admitSpecific f n frame c := by
  rw [judgeAdmission_unheld working unheld, settled]
  rfl

theorem judgeAdmission_order (notTaken : ¬ TakenIn (u.flow f).state c) :
    u.judgeAdmission f n frame c = RefusedFirst u f n frame .order 0 := by
  have out : (u.flow f).state.takes c = false := Bool.eq_false_iff.mpr fun takes => notTaken ((KeepsFlows.takes_iff _ _).mp takes)
  rw [judgeAdmission_settled working unheld settled, out]
  rfl

variable (taken : TakenIn (u.flow f).state c)
include taken

theorem judgeAdmission_taken : u.judgeAdmission f n frame c =
    if firstMalformed frame then u.brokenFirst f n frame c
    else if illFormed c frame then u.refuseFirst f n frame .layout 0x00
    else u.admitSpecific f n frame c := by
  rw [judgeAdmission_settled working unheld settled, (KeepsFlows.takes_iff _ _).mpr taken]
  rfl

theorem judgeAdmission_malformed (malformed : firstMalformed frame = true) :
    u.judgeAdmission f n frame c = u.brokenFirst f n frame c := by
  rw [judgeAdmission_taken working unheld settled taken, if_pos malformed]

theorem judgeAdmission_illFormed (wellFormed : firstMalformed frame = false) (form : illFormed c frame = true) :
    u.judgeAdmission f n frame c = RefusedFirst u f n frame .layout 0 := by
  rw [judgeAdmission_taken working unheld settled taken, wellFormed, form]
  rfl

end

/-- A state that takes an update request has not ended (R76). -/
theorem working_of_takenIn {k : FlowState} {c : UpdateCode} (taken : TakenIn k c) : k ≠ .done ∧ k ≠ .failed := by
  obtain ⟨rfl, -⟩ | ⟨rfl, -⟩ := taken <;> exact ⟨by decide, by decide⟩

theorem brokenFirst_other (u : State) (f : FlowId) (n : TargetId) (frame : CanFrame) {c : UpdateCode} (other : c ≠ .block) :
    u.brokenFirst f n frame c = RefusedFirst u f n frame .broken 5 := by
  unfold State.brokenFirst
  cases c with
  | block => exact (other rfl).elim
  | erase | open_ | close | activate | abandon => rfl

theorem ofByte_code (c : UpdateCode) : UpdateCode.ofByte c.code = some c := by
  cases c <;> rfl

theorem code_of_ofByte {b : Byte} {c : UpdateCode} (h : UpdateCode.ofByte b = some c) : b = c.code := by
  unfold UpdateCode.ofByte at h
  split at h
  all_goals cases h
  all_goals exact BitVec.eq_of_toNat_eq (by assumption)

theorem code_mem (c : UpdateCode) : (c.code, c) ∈
    ([(0x61, .erase), (0x62, .open_), (0x63, .block), (0x64, .close), (0x65, .activate), (0x66, .abandon)] :
      List (Byte × UpdateCode)) := by
  cases c <;> decide

theorem ofByte_eq_some_iff (b : Byte) (c : UpdateCode) : UpdateCode.ofByte b = some c ↔
    (b, c) ∈ ([(0x61, .erase), (0x62, .open_), (0x63, .block), (0x64, .close), (0x65, .activate), (0x66, .abandon)] :
      List (Byte × UpdateCode)) := by
  constructor
  · intro h
    rw [code_of_ofByte h]
    exact code_mem c
  · intro mem
    have same : b = c.code := by
      cases c <;> simpa [UpdateCode.code] using mem
    rw [same, ofByte_code]

theorem illFormed_iff (c : UpdateCode) (frame : CanFrame) : illFormed c frame = true ↔
    (c = .block ∧ parcelLength frame < 3)
      ∨ (c ≠ .block ∧ (frameKind frame = .opener ∨ some (parcelLength frame) ≠ c.wholeLength)) := by
  unfold illFormed
  cases c <;> simp [UpdateCode.wholeLength]

/-- Settles O18, by the admission checks one after another, on what replacement keeps of the flow. -/
theorem admissionRefusesInOrder : Obligations.AdmissionRefusesInOrder := by
  unfold Obligations.AdmissionRefusesInOrder
  refine ⟨fun s t frame f n c arrival code => ?checks, ⟨ofByte_eq_some_iff, code_mem⟩,
    fun c frame => ?form⟩
  case checks =>
    have state := State.replaceRecord_state (Received s t .trunk) f
    have holds := State.replaceRecord_holds (Received s t .trunk) f
    have pending := State.replaceRecord_pendingReq (Received s t .trunk) f
    rw [exec_admission t arrival code]
    refine ⟨fun ended => ?ended, fun working supply => ?supply, fun working held => ?held,
      fun working unheld overlap => ?overlap, fun working unheld settled out => ?order,
      fun unheld settled taken malformed other => ?broken, fun unheld settled taken malformed block => ?brokenBlock,
      fun unheld settled taken wellFormed form => ?layout⟩
    case ended => rw [judgeAdmission_ended (by rwa [state])]
    case supply => rw [judgeAdmission_supply (by rwa [state]) (by rwa [holds])]
    case held => rw [judgeAdmission_held (by rwa [state]) (holds.trans held)]
    case overlap => rw [judgeAdmission_overlap (by rwa [state]) (holds.trans unheld) (by rwa [pending])]
    case order =>
      rw [judgeAdmission_order (by rwa [state]) (holds.trans unheld) (pending.trans settled) (by rwa [state])]
    case broken =>
      rw [judgeAdmission_malformed (by rw [state]; exact working_of_takenIn taken) (holds.trans unheld)
        (pending.trans settled) (by rwa [state]) malformed, brokenFirst_other _ f n frame other]
    case brokenBlock =>
      rw [judgeAdmission_malformed (by rw [state]; exact working_of_takenIn taken) (holds.trans unheld)
        (pending.trans settled) (by rwa [state]) malformed, block]
      rfl
    case layout =>
      rw [judgeAdmission_illFormed (by rw [state]; exact working_of_takenIn taken) (holds.trans unheld)
        (pending.trans settled) (by rwa [state]) wellFormed form]
  case form =>
    refine (illFormed_iff c frame).trans ?_
    cases c <;> simp [UpdateCode.wholeLength]

/-! ## Requests that are forwarded (R83) -/

section
variable {u : State} {f : FlowId} {n : TargetId} {frame : CanFrame}

theorem forwardRequest_eq (c : UpdateCode) (k : PendingKind) (sound : (u.target n).parityBad = false) :
    u.forwardRequest f n frame c k =
      if u.room (u.target n).segment.port .dialogue then
        (Enqueued u (u.target n).segment.port .dialogue frame).setFlow f
          { u.flow f with
            record := none
            pendingReq := some ⟨k, u.now + ms (u.flow f).params.responseTime⟩
            state := k.state
            openRegion := if k.keepsOpen then (u.flow f).openRegion else none }
      else RefusedFirst u f n frame .broken 5 := by
  have written : ((u.toSegment n frame).beginPending f k).setRecord f none = (u.toSegment n frame).setFlow f _ :=
    mapFlow_mapFlow (u.toSegment n frame) f _ _
  unfold State.forwardRequest
  rw [if_neg (by rw [sound]; exact Bool.false_ne_true), written]
  rfl

theorem openNumber_eq {o : OpenRegion} (h : (u.flow f).openRegion = some o) : (u.flow f).openNumber = o.region := by
  unfold FlowCtx.openNumber
  rw [h]

end

/-! ## The range of an ERASE or OPEN (R78) -/

section
variable (image : ImageRecord)

/-- The first slots of an image, by number. -/
theorem takeSlots_getElem? (slots : Vector Slot 8) (m k : Nat) (x : Slot) :
    (slots.toList.take m)[k]? = some x ↔ ∃ j : SlotId, j.val = k ∧ k < m ∧ slots.get j = x := by
  rw [List.getElem?_take]
  split
  · next count =>
    rw [List.getElem?_eq_some_iff]
    constructor
    · rintro ⟨size, rfl⟩
      have slot : k < 8 := by rwa [Vector.length_toList] at size
      exact ⟨⟨k, slot⟩, rfl, count, by rw [Vector.get_eq_getElem, Vector.getElem_toList]⟩
    · rintro ⟨j, rfl, -, rfl⟩
      have size : j.val < slots.toList.length := by rw [Vector.length_toList]; exact j.isLt
      exact ⟨size, by rw [Vector.get_eq_getElem, Vector.getElem_toList]⟩
  · next count => exact iff_of_false (by simp) fun ⟨j, _, below, _⟩ => count below

theorem mem_takeSlots_iff (slots : Vector Slot 8) (m : Nat) (x : Slot) :
    x ∈ slots.toList.take m ↔ ∃ k : SlotId, k.val < m ∧ slots.get k = x := by
  rw [List.mem_iff_getElem?]
  constructor
  · rintro ⟨i, at_⟩
    obtain ⟨k, rfl, count, same⟩ := (takeSlots_getElem? slots m i x).mp at_
    exact ⟨k, count, same⟩
  · rintro ⟨k, count, same⟩
    exact ⟨k.val, (takeSlots_getElem? slots m k.val x).mpr ⟨k, rfl, count, same⟩⟩

/-- A damaged slot among the first ones. -/
theorem takeSlots_any_parityBad (slots : Vector Slot 8) (m : Nat) : (slots.toList.take m).any (·.parityBad) = true ↔
    ∃ k : SlotId, k.val < m ∧ (slots.get k).parityBad = true := by
  rw [List.any_eq_true]
  constructor
  · rintro ⟨x, mem, bad⟩
    obtain ⟨k, count, rfl⟩ := (mem_takeSlots_iff slots m x).mp mem
    exact ⟨k, count, bad⟩
  · rintro ⟨k, count, bad⟩
    exact ⟨_, (mem_takeSlots_iff slots m _).mpr ⟨k, count, rfl⟩, bad⟩

/-- The loaded regions with their numbers (R26). -/
theorem mem_regions_iff (k : Nat) (x : Region) : (k, x) ∈ image.regions ↔
    ∃ j : SlotId, j.val = k ∧ k < image.regionCount.getD 0 ∧ (image.slots.get j).region = some x := by
  unfold ImageRecord.regions
  rw [List.mem_filterMap]
  constructor
  · rintro ⟨⟨slot, i⟩, mem, loaded⟩
    obtain ⟨y, region, eq⟩ := Option.map_eq_some_iff.mp loaded
    obtain ⟨rfl, rfl⟩ := Prod.mk.inj eq
    obtain ⟨j, same, count, rfl⟩ := (takeSlots_getElem? image.slots _ i slot).mp (List.mem_zipIdx_iff_getElem?.mp mem)
    exact ⟨j, same, count, region⟩
  · rintro ⟨j, same, count, region⟩
    refine ⟨(image.slots.get j, k), List.mem_zipIdx_iff_getElem?.mpr ?_, ?_⟩
    · exact (takeSlots_getElem? image.slots _ k _).mpr ⟨j, same, count, rfl⟩
    · exact Option.map_eq_some_iff.mpr ⟨x, region, rfl⟩

/-- What a damaged image record is, for a read of its regions (R37, R81). -/
theorem readBad_iff : image.readBad = true ↔
    image.bad ≠ [] ∨ ∃ k : SlotId, k.val < image.regionCount.getD 0 ∧ (image.slots.get k).parityBad = true := by
  unfold ImageRecord.readBad
  rw [Bool.or_eq_true, Bool.not_eq_true', List.isEmpty_eq_false_iff]
  exact or_congr Iff.rfl (takeSlots_any_parityBad image.slots _)

theorem guards_iff (e : TargetEntry) (address length : Nat) : e.guards address length = true ↔
    ∃ w, (e.guard0 = some w ∨ e.guard1 = some w) ∧ w.base < address + length
      ∧ address < w.base + 4096 * 2 ^ w.sizeCode := by
  have touches (w : AddrWindow) : w.touches address length = true ↔
      w.base < address + length ∧ address < w.base + 4096 * 2 ^ w.sizeCode := by
    unfold AddrWindow.touches rangesOverlap windowSize
    rw [Bool.and_eq_true, decide_eq_true_iff, decide_eq_true_iff]
  have one (g : Option AddrWindow) : (match g with
      | some w => w.touches address length
      | none => false) = true ↔ ∃ w, g = some w ∧ w.touches address length = true := by
    cases g <;> simp
  unfold TargetEntry.guards
  rw [Bool.or_eq_true]
  refine (or_congr (one e.guard0) (one e.guard1)).trans ?_
  simp only [touches]
  constructor
  · rintro (⟨w, guard, inside⟩ | ⟨w, guard, inside⟩)
    · exact ⟨w, Or.inl guard, inside⟩
    · exact ⟨w, Or.inr guard, inside⟩
  · rintro ⟨w, guard | guard, inside⟩
    · exact Or.inl ⟨w, guard, inside⟩
    · exact Or.inr ⟨w, guard, inside⟩

end

section
variable {s : State} {f : FlowId} {n : TargetId} {address length : Nat}

theorem rangeFinding_layout (empty : length = 0) : s.rangeFinding f n address length = .layout := if_pos empty

variable (full : length ≠ 0) (sound : (s.target n).parityBad = false)
include full sound

theorem rangeFinding_guarded (guarded : (s.target n).guards address length = true) :
    s.rangeFinding f n address length = .guarded := by
  unfold State.rangeFinding
  rw [if_neg full, if_neg (by rw [sound]; exact Bool.false_ne_true), if_pos guarded]

variable (unguarded : (s.target n).guards address length = false)
include unguarded

theorem rangeFinding_imageFault (damaged : (s.imageOf f).readBad = true) :
    s.rangeFinding f n address length = .imageFault := by
  unfold State.rangeFinding
  rw [if_neg full, if_neg (by rw [sound]; exact Bool.false_ne_true),
    if_neg (by rw [unguarded]; exact Bool.false_ne_true), if_pos damaged]

variable (readable : (s.imageOf f).readBad = false)
include readable

theorem rangeFinding_outOfWindow
    (outside : ∀ q ∈ (s.imageOf f).regions, q.2.contains address length = false) :
    s.rangeFinding f n address length = .outOfWindow := by
  have none : ((s.imageOf f).regions.find? fun q => q.2.contains address length) = Option.none :=
    List.find?_eq_none.mpr fun q mem => Bool.eq_false_iff.mp (outside q mem)
  unfold State.rangeFinding
  rw [if_neg full, if_neg (by rw [sound]; exact Bool.false_ne_true),
    if_neg (by rw [unguarded]; exact Bool.false_ne_true), if_neg (by rw [readable]; exact Bool.false_ne_true), none]

theorem rangeFinding_of_only {r : Nat} {x : Region} (loaded : (r, x) ∈ (s.imageOf f).regions)
    (holds : x.contains address length = true)
    (only : ∀ q ∈ (s.imageOf f).regions, q.2.contains address length = true → q = (r, x)) :
    s.rangeFinding f n address length = .region r x := by
  have found : ((s.imageOf f).regions.find? fun q => q.2.contains address length) = some (r, x) :=
    find?_eq_some_of_only loaded holds only
  unfold State.rangeFinding
  rw [if_neg full, if_neg (by rw [sound]; exact Bool.false_ne_true),
    if_neg (by rw [unguarded]; exact Bool.false_ne_true), if_neg (by rw [readable]; exact Bool.false_ne_true), found]

end

/-- The one region that holds the range of a request is what the range checks find (R78). -/
theorem rangeFinding_region {s : State} {f : FlowId} {n : TargetId} {frame : CanFrame} {r : Nat} {x : Region}
    (sound : (s.target n).parityBad = false) (h : InRegion s f n frame r x) :
    s.rangeFinding f n (rangeAddress frame) (rangeLength frame) = .region r x := by
  have readable : (s.imageOf f).readBad = false := by
    rw [Bool.eq_false_iff, ne_eq, readBad_iff]
    rintro (damaged | ⟨k, count, damaged⟩)
    · exact damaged h.fields
    · rw [h.slots k count] at damaged
      exact Bool.false_ne_true damaged
  exact rangeFinding_of_only h.length sound h.unguarded readable h.loaded h.holds h.only

/-! ## The request-specific checks (R77 to R80) -/

section
variable {u : State} {f : FlowId} {n : TargetId} {frame : CanFrame} {c : UpdateCode} (h : c = .erase ∨ c = .open_)
include h

theorem admitSpecific_range_layout
    (finding : u.rangeFinding f n (rangeAddress frame) (rangeLength frame) = .layout) :
    u.admitSpecific f n frame c = RefusedFirst u f n frame .layout 0 := by
  obtain rfl | rfl := h
  · unfold State.admitSpecific State.admitErase
    rw [finding]
    rfl
  · unfold State.admitSpecific State.admitOpen
    rw [finding]
    rfl

theorem admitSpecific_range_guarded
    (finding : u.rangeFinding f n (rangeAddress frame) (rangeLength frame) = .guarded) :
    u.admitSpecific f n frame c = (RefusedFirst u f n frame .guarded 0).offersComeFirst.failFlow f .guarded := by
  obtain rfl | rfl := h
  · unfold State.admitSpecific State.admitErase
    rw [finding]
    rfl
  · unfold State.admitSpecific State.admitOpen
    rw [finding]
    rfl

theorem admitSpecific_range_imageFault
    (finding : u.rangeFinding f n (rangeAddress frame) (rangeLength frame) = .imageFault) :
    u.admitSpecific f n frame c = ((u.raiseFault .image).refuse n c.code .ended 0).failFlow f .tableFault := by
  obtain rfl | rfl := h
  · unfold State.admitSpecific State.admitErase
    rw [finding]
    rfl
  · unfold State.admitSpecific State.admitOpen
    rw [finding]
    rfl

theorem admitSpecific_range_outOfWindow
    (finding : u.rangeFinding f n (rangeAddress frame) (rangeLength frame) = .outOfWindow) :
    u.admitSpecific f n frame c =
      (RefusedFirst u f n frame .outOfWindow 0).offersComeFirst.failFlow f .outOfWindow := by
  obtain rfl | rfl := h
  · unfold State.admitSpecific State.admitErase
    rw [finding]
    rfl
  · unfold State.admitSpecific State.admitOpen
    rw [finding]
    rfl

end

section
variable {u : State} {f : FlowId} {n : TargetId} {frame : CanFrame} {r : Nat} {x : Region}
  (finding : u.rangeFinding f n (rangeAddress frame) (rangeLength frame) = .region r x)
include finding

theorem admitErase_region : u.admitErase f n frame =
    if rangeAddress frame ≠ x.base ∨ rangeLength frame < x.length then RefusedFirst u f n frame .layout 0
    else if u.supply.state = .low then RefusedFirst u f n frame .supply 0
    else u.gate f n frame (.erase r) := by
  unfold State.admitErase
  rw [finding]
  rfl

theorem admitOpen_region : u.admitOpen f n frame =
    if rangeAddress frame ≠ x.base ∨ rangeLength frame ≠ x.length ∨ openBlockLength frame ≠ x.blockLength then
      RefusedFirst u f n frame .layout 0
    else if x.erase ∧ (u.flow f).regionState r ≠ .erased then RefusedFirst u f n frame .order 0
    else u.forwardRequest f n frame .open_ (.open_ ⟨r, x.length, x.blockLength, x.checkCount⟩) := by
  unfold State.admitOpen
  rw [finding]
  rfl

end

section
variable {s : State} {t : Time} {frame : CanFrame} {f : FlowId} {n : TargetId}

/-- The target an arrival names is sound, and still is after replacement (R24, R144). -/
theorem AdmissionArrival_sound (arrival : AdmissionArrival s frame f n) :
    (((Received s t .trunk).replaceRecord f).target n).parityBad = false := by
  rw [State.replaceRecord_target]
  exact arrival.arrival.sound n arrival.request.valid

/-- A request whose range lies in one region meets that region after replacement. -/
theorem replaceRecord_finding (arrival : AdmissionArrival s frame f n) {r : Nat} {x : Region}
    (inside : InRegion s f n frame r x) :
    ((Received s t .trunk).replaceRecord f).rangeFinding f n (rangeAddress frame) (rangeLength frame) = .region r x := by
  rw [State.replaceRecord_rangeFinding]
  exact rangeFinding_region (s := Received s t .trunk) (arrival.arrival.sound n arrival.request.valid)
    ⟨inside.1, inside.2, inside.3, inside.4, inside.5, inside.6, inside.7⟩

end

/-- Settles O19, by the one forwarding step, whose pending record each request names. -/
theorem openCloseAbandonForwarded : Obligations.OpenCloseAbandonForwarded := by
  unfold Obligations.OpenCloseAbandonForwarded
  intro s t frame f n c arrival admissible
  have sound := AdmissionArrival_sound (t := t) arrival
  have region := State.replaceRecord_openRegion (Received s t .trunk) f
  rw [exec_admissible t arrival admissible]
  refine ⟨fun o close opened => ?close, fun o abandon opened => ?abandon,
    fun r x opens inside base length block erased => ?opens⟩
  case close =>
    subst close
    rw [show ∀ u : State, u.admitSpecific f n frame .close = u.forwardRequest f n frame .close (.close (u.flow f).openNumber)
      from fun _ => rfl, openNumber_eq (region.trans opened), forwardRequest_eq _ _ sound, State.replaceRecord_now,
      State.replaceRecord_params, region, State.replaceRecord_target]
    rfl
  case abandon =>
    subst abandon
    rw [show ∀ u : State, u.admitSpecific f n frame .abandon =
      u.forwardRequest f n frame .abandon (.abandon (u.flow f).openNumber)
      from fun _ => rfl, openNumber_eq (region.trans opened), forwardRequest_eq _ _ sound, State.replaceRecord_now,
      State.replaceRecord_params, region, State.replaceRecord_target]
    rfl
  case opens =>
    subst opens
    rw [show ∀ u : State, u.admitSpecific f n frame .open_ = u.admitOpen f n frame from fun _ => rfl,
      admitOpen_region (replaceRecord_finding arrival inside), if_neg (by simp [base, length, block]),
      if_neg (by rw [State.replaceRecord_regionState]; exact fun bad => bad.2 (erased bad.1)), forwardRequest_eq _ _ sound,
      State.replaceRecord_now, State.replaceRecord_params, region, State.replaceRecord_target]
    rfl

/-- Settles O20, by the range checks in order and the reads of windows, regions and fields. -/
theorem rangeChecksRefuse : Obligations.RangeChecksRefuse := by
  unfold Obligations.RangeChecksRefuse
  refine ⟨fun s t frame f n c arrival admissible ranged => ?checks, fun e image address length =>
    ⟨guards_iff e address length, mem_regions_iff image, fun x => ?contains⟩, fun frame => ⟨fun size => ?range, fun size => ?block⟩,
    fun c b r k binding at_ => ?state⟩
  case checks =>
    have sound : ((Received s t .trunk).target n).parityBad = false := arrival.arrival.sound n arrival.request.valid
    have same := State.replaceRecord_rangeFinding (Received s t .trunk) f n (rangeAddress frame) (rangeLength frame)
    rw [exec_admissible t arrival admissible]
    refine ⟨fun empty => ?empty, fun full guarded => ?guarded, fun full unguarded damaged => ?damaged,
      fun full unguarded readable outside => ?outside,
      fun r x inside => ⟨fun bad => ?layout, fun opens base length block erase notErased => ?order,
        fun erase base length low => ?supply⟩⟩
    case empty => rw [admitSpecific_range_layout ranged (same.trans (rangeFinding_layout empty))]
    case guarded => rw [admitSpecific_range_guarded ranged (same.trans (rangeFinding_guarded full sound guarded))]
    case damaged =>
      rw [admitSpecific_range_imageFault ranged
        (same.trans (rangeFinding_imageFault full sound unguarded ((readBad_iff _).mpr damaged)))]
    case outside =>
      rw [admitSpecific_range_outOfWindow ranged (same.trans (rangeFinding_outOfWindow full sound unguarded
        (Bool.eq_false_iff.mpr fun bad => readable ((readBad_iff _).mp bad)) outside))]
    case layout =>
      have finding := replaceRecord_finding (t := t) arrival inside
      obtain base | ⟨rfl, short⟩ | ⟨rfl, other⟩ := bad
      · obtain rfl | rfl := ranged
        · exact congrArg (fun u => Host.Outcome.next (State.trunkTakes u))
            ((admitErase_region finding).trans (if_pos (Or.inl base)))
        · exact congrArg (fun u => Host.Outcome.next (State.trunkTakes u))
            ((admitOpen_region finding).trans (if_pos (Or.inl base)))
      · exact congrArg (fun u => Host.Outcome.next (State.trunkTakes u))
          ((admitErase_region finding).trans (if_pos (Or.inr short)))
      · exact congrArg (fun u => Host.Outcome.next (State.trunkTakes u))
          ((admitOpen_region finding).trans (if_pos (Or.inr other)))
    case order =>
      subst opens
      rw [show ∀ u : State, u.admitSpecific f n frame .open_ = u.admitOpen f n frame from fun _ => rfl,
        admitOpen_region (replaceRecord_finding arrival inside), if_neg (by simp [base, length, block]),
        if_pos ⟨erase, by rw [State.replaceRecord_regionState]; exact notErased⟩]
    case supply =>
      subst erase
      rw [show ∀ u : State, u.admitSpecific f n frame .erase = u.admitErase f n frame from fun _ => rfl,
        admitErase_region (replaceRecord_finding arrival inside), if_neg (by simp [base, length]),
        if_pos ((State.replaceRecord_supplyState (Received s t .trunk) f).trans low)]
  case contains =>
    unfold Region.contains windowSize
    rw [Bool.and_eq_true, decide_eq_true_iff, decide_eq_true_iff]
  case range => exact ⟨fieldAt_four (by omega), fieldAt_four (by omega)⟩
  case block => exact fieldAt_two (by omega)
  case state =>
    unfold FlowCtx.regionState
    rw [binding]
    dsimp only
    rw [List.getD_eq_getElem?_getD, at_]
    rfl

end Sys2Proof.Proofs
end

section
/-! Requests that wait at the gate, and the frames of an inspected parcel (C4): O21, O22, O23, O24 and O25 (R2 to R6, R71
to R75, R84 to R93, R136). -/

namespace Sys2Proof.Proofs
open Sys2Proof.Machine

/-! ## The gate (R93, R136) -/

section
variable {u : State} {f : FlowId} {n : TargetId} {frame : CanFrame}

theorem gateRequest_idle (h : u.supply.converter = .idle) : u.gateRequest f =
    { u with
      supply :=
        { u.supply with
          converter := .converting (u.now + 200) (insertFlow f u.supply.waiting)
          waiting := [] } } := by
  unfold State.gateRequest State.mapSupply
  dsimp only
  rw [h]
  rfl

theorem gateRequest_converting {done : Time} {served : List FlowId} (h : u.supply.converter = .converting done served) :
    u.gateRequest f = { u with supply := { u.supply with waiting := insertFlow f u.supply.waiting } } := by
  unfold State.gateRequest State.mapSupply
  dsimp only
  rw [h]

/-- A request to the gate, in one update of the supply (R136). -/
theorem gateRequest_eq (u : State) (f : FlowId) : u.gateRequest f =
    { u with
      supply := match u.supply.converter with
        | .idle =>
          { u.supply with converter := .converting (u.now + 200) (insertFlow f u.supply.waiting), waiting := [] }
        | .converting _ _ => { u.supply with waiting := insertFlow f u.supply.waiting } } := by
  cases h : u.supply.converter with
  | idle => exact gateRequest_idle h
  | converting done served => exact gateRequest_converting h

theorem gate_given {x : CellId} (g : Gated) (given : CellGiven u f x) : u.gate f n frame g =
    { u with
      cells := u.cells.set x ⟨true, ⟨frame.data, none, some ⟨frame.data.length, frame.brs⟩⟩, false⟩
      flows := u.flows.set f { u.flow f with held := some x, record := some (.gated g) }
      supply := match u.supply.converter with
        | .idle =>
          { u.supply with converter := .converting (u.now + 200) (insertFlow f u.supply.waiting), waiting := [] }
        | .converting _ _ => { u.supply with waiting := insertFlow f u.supply.waiting } } := by
  unfold State.gate
  rw [(cellFor_eq_some_iff u f x).mpr given]
  exact gateRequest_eq _ f

/-- A gated request that offers nothing is its event's end. -/
theorem gate_trunkTakes {x : CellId} {now : Time} (g : Gated) (at_ : u.now = now) (offersNil : u.offers = [])
    (given : CellGiven u f x) : (u.gate f n frame g).trunkTakes =
      { u with
        cells := u.cells.set x ⟨true, ⟨frame.data, none, some ⟨frame.data.length, frame.brs⟩⟩, false⟩
        flows := u.flows.set f { u.flow f with held := some x, record := some (.gated g) }
        supply := match u.supply.converter with
          | .idle =>
            { u.supply with converter := .converting (now + 200) (insertFlow f u.supply.waiting), waiting := [] }
          | .converting _ _ => { u.supply with waiting := insertFlow f u.supply.waiting } } := by
  subst at_
  rw [gate_given g given]
  exact State.trunkTakes_nil _ offersNil

theorem cellFor_none_of_not_given (none : ∀ x, ¬ CellGiven u f x) : u.cellFor f = Option.none :=
  Option.eq_none_iff_forall_not_mem.mpr fun x mem => none x ((cellFor_eq_some_iff u f x).mp mem)

theorem gate_refused (g : Gated) (none : ∀ x, ¬ CellGiven u f x) :
    u.gate f n frame g = RefusedFirst u f n frame .broken 5 := by
  unfold State.gate
  rw [cellFor_none_of_not_given none]
  rfl

theorem admitActivate_low (low : u.supply.state = .low) :
    u.admitActivate f n frame = RefusedFirst u f n frame .supply 0 := if_pos low

theorem admitActivate_notVerified (notLow : u.supply.state ≠ .low) (open_ : (u.flow f).allVerified = false) :
    u.admitActivate f n frame = RefusedFirst u f n frame .notVerified 0 := by
  unfold State.admitActivate
  rw [if_neg notLow, open_]
  rfl

theorem admitActivate_gated (notLow : u.supply.state ≠ .low) (verified : (u.flow f).allVerified = true) :
    u.admitActivate f n frame = u.gate f n frame .activate := by
  unfold State.admitActivate
  rw [if_neg notLow, verified]
  rfl

end

theorem allVerified_iff {c : FlowCtx} {b : Binding} (binding : c.binding = some b) :
    c.allVerified = true ↔ ∀ k ∈ b.regions, k = .verified := by
  unfold FlowCtx.allVerified
  rw [binding]
  simp only [List.all_eq_true, beq_iff_eq]

theorem mem_insertFlow (f : FlowId) (l : List FlowId) (g : FlowId) : g ∈ insertFlow f l ↔ g = f ∨ g ∈ l := by
  induction l with
  | nil => exact List.mem_cons
  | cons x rest ih =>
    rw [insertFlow]
    split
    · exact List.mem_cons
    · split
      · next same =>
        rw [same, List.mem_cons]
        exact (or_iff_right_of_imp Or.inl).symm
      · rw [List.mem_cons, ih, List.mem_cons]
        exact or_left_comm

theorem insertFlow_ordered (f : FlowId) {l : List FlowId} (ordered : l.Pairwise (· < ·)) :
    (insertFlow f l).Pairwise (· < ·) := by
  induction l with
  | nil => exact List.pairwise_singleton _ _
  | cons x rest ih =>
    obtain ⟨first, tail⟩ := List.pairwise_cons.mp ordered
    rw [insertFlow]
    split
    · next below =>
      exact List.pairwise_cons.mpr ⟨List.forall_mem_cons.mpr ⟨below, fun y mem => below.trans (first y mem)⟩, ordered⟩
    · next notBelow =>
      split
      · exact ordered
      · next other =>
        refine List.pairwise_cons.mpr ⟨fun y mem => ?_, ih tail⟩
        obtain rfl | mem := (mem_insertFlow f rest y).mp mem
        · exact lt_of_le_of_ne (not_lt.mp notBelow) (Ne.symm other)
        · exact first y mem

theorem replaceRecord_offers (s : State) (f : FlowId) : (s.replaceRecord f).offers = s.offers := by
  unfold State.replaceRecord
  split <;> simp [State.endSilently, State.dropParcelWork, State.dropGated]

/-- Settles O21, by the gate's two outcomes. -/
theorem eraseAndActivateGated : Obligations.EraseAndActivateGated := by
  unfold Obligations.EraseAndActivateGated
  refine ⟨fun s t frame f n c arrival admissible => ?gates, fun c b => allVerified_iff,
    fun f l ordered => ⟨insertFlow_ordered f ordered, mem_insertFlow f l⟩⟩
  case gates =>
    have supply := State.replaceRecord_supplyState (Received s t .trunk) f
    have verified := State.replaceRecord_allVerified (Received s t .trunk) f
    have offersNil : ((Received s t .trunk).replaceRecord f).offers = [] :=
      (replaceRecord_offers _ f).trans arrival.arrival.running.offered
    have now : ((Received s t .trunk).replaceRecord f).now = max s.now t := State.replaceRecord_now _ f
    rw [exec_admissible t arrival admissible]
    refine ⟨fun r x erase inside base length notLow => ⟨_, rfl, fun y given => ?erase, fun none => ?eraseRefused⟩,
      fun activate notLow all => ⟨_, rfl, fun y given => ?activate, fun none => ?activateRefused⟩,
      fun activate low => ?low, fun activate notLow open_ => ?notVerified⟩
    case erase =>
      subst erase
      have goes : ((Received s t .trunk).replaceRecord f).admitSpecific f n frame .erase =
          ((Received s t .trunk).replaceRecord f).gate f n frame (.erase r) :=
        (admitErase_region (replaceRecord_finding arrival inside)).trans ((if_neg (by simp [base, length])).trans
          (if_neg (by rw [supply]; exact notLow)))
      exact (congrArg State.trunkTakes goes).trans (gate_trunkTakes _ now offersNil given)
    case eraseRefused =>
      subst erase
      have goes : ((Received s t .trunk).replaceRecord f).admitSpecific f n frame .erase =
          ((Received s t .trunk).replaceRecord f).gate f n frame (.erase r) :=
        (admitErase_region (replaceRecord_finding arrival inside)).trans ((if_neg (by simp [base, length])).trans
          (if_neg (by rw [supply]; exact notLow)))
      rw [goes, gate_refused _ none]
    case activate =>
      subst activate
      have goes : ((Received s t .trunk).replaceRecord f).admitSpecific f n frame .activate =
          ((Received s t .trunk).replaceRecord f).gate f n frame .activate :=
        admitActivate_gated (by rw [supply]; exact notLow) (verified.trans all)
      exact (congrArg State.trunkTakes goes).trans (gate_trunkTakes _ now offersNil given)
    case activateRefused =>
      subst activate
      have goes : ((Received s t .trunk).replaceRecord f).admitSpecific f n frame .activate =
          ((Received s t .trunk).replaceRecord f).gate f n frame .activate :=
        admitActivate_gated (by rw [supply]; exact notLow) (verified.trans all)
      rw [goes, gate_refused _ none]
    case low =>
      subst activate
      exact congrArg (fun u => Host.Outcome.next (State.trunkTakes u)) (admitActivate_low (supply.trans low))
    case notVerified =>
      subst activate
      exact congrArg (fun u => Host.Outcome.next (State.trunkTakes u))
        (admitActivate_notVerified (by rw [supply]; exact notLow) (verified.trans open_))

/-! ## The checks of a block (R84) -/

theorem blockLengthFinding_admits {o : OpenRegion} {k : Nat} {isRepeat : Bool} {dataLength : Nat}
    (inside : isRepeat = true ∨ k < o.checkCount) : blockLengthFinding o k isRepeat dataLength =
      if o.expectedLength k < dataLength then .early .overrun
      else if dataLength < o.expectedLength k then .early .underrun else .admitted k isRepeat := by
  refine if_neg ?_
  obtain rfl | below := inside
  · simp
  · simp [below]

/-- Settles O22, by the cases of the sequence number and the length checks. -/
theorem blockChecksInOrder : Obligations.BlockChecksInOrder := by
  unfold Obligations.BlockChecksInOrder
  intro c o seq dataLength
  unfold FlowCtx.blockFinding
  refine ⟨fun unexpected other => ?_, fun expected past => ?_, fun expected inside => ?_, fun unexpected again => ?_⟩
  · rw [if_neg unexpected, if_neg other]
  · rw [if_pos expected, blockLengthFinding, if_pos (by simp [past])]
  · rw [if_pos expected, blockLengthFinding_admits (Or.inr inside)]
    rfl
  · rw [if_neg unexpected, if_pos again, blockLengthFinding_admits (Or.inl rfl)]
    rfl

/-! ## The end of a broken parcel (R89) -/

section
variable (u : State) (f : FlowId)

theorem foldl_freeCell_setFlow (d : FlowCtx) (l : List CellId) :
    l.foldl State.freeCell (u.setFlow f d) = (l.foldl State.freeCell u).setFlow f d := by
  induction l generalizing u with
  | nil => rfl
  | cons c rest ih => exact ih (u.freeCell c)

theorem freeFlowCells_setFlow {d : FlowCtx} (cells : d.heldCells = (u.flow f).heldCells) :
    (u.setFlow f d).freeFlowCells f = (u.freeFlowCells f).setFlow f { d with fifo := [], held := none } := by
  unfold State.freeFlowCells
  dsimp only
  rw [State.flow_setFlow, if_pos rfl, cells, foldl_freeCell_setFlow, setFlow_setFlow, setFlow_setFlow]

/-- A parcel's work is dropped beside a context that holds the same cells. -/
theorem dropParcelWork_setFlow {d : FlowCtx} (cells : d.heldCells = (u.flow f).heldCells) :
    (u.setFlow f d).dropParcelWork f = (u.dropParcelWork f).setFlow f { d with fifo := [], held := none } := by
  unfold State.dropParcelWork
  rw [freeFlowCells_setFlow u f cells, State.abandonFlowSlice_eq, State.abandonFlowSlice_eq]
  rfl

theorem dropParcelWork_flow : (u.dropParcelWork f).flow f = { u.flow f with fifo := [], held := none } := by
  unfold State.dropParcelWork
  rw [State.abandonFlowSlice_flow, State.freeFlowCells_flow, if_pos rfl]

theorem endBroken_eq (n : TargetId) (b : Bool) : u.endBroken f n b =
    (((u.dropParcelWork f).refuse n UpdateCode.block.code .broken 0x05).setFlow f
      { u.flow f with
        fifo := [], held := none, lastVerdict := some .broken, record := recordAfterEnd b }).countFailure f := by
  have written (v : State) (same : v.flow f = { u.flow f with fifo := [], held := none }) :
      (v.setVerdict f .broken).setRecord f (recordAfterEnd b) = v.setFlow f { u.flow f with
        fifo := [], held := none, lastVerdict := some .broken, record := recordAfterEnd b } := by
    refine (mapFlow_mapFlow v f _ _).trans ?_
    unfold State.mapFlow
    rw [same]
  exact congrArg (fun v => State.countFailure v f) (written _ (dropParcelWork_flow u f))

/-- What the record held does not matter to the end of a broken parcel. -/
theorem endBroken_setRecord (r : Option ParcelRecord) (n : TargetId) (b : Bool) :
    (u.setRecord f r).endBroken f n b = u.endBroken f n b := by
  have dropped : (u.setRecord f r).dropParcelWork f = (u.dropParcelWork f).setFlow f _ :=
    dropParcelWork_setFlow u f (d := { u.flow f with record := r }) rfl
  rw [endBroken_eq, endBroken_eq, dropped, State.flow_setRecord, if_pos rfl]
  exact congrArg (fun v => State.countFailure v f)
    (setFlow_setFlow ((u.dropParcelWork f).refuse n UpdateCode.block.code .broken 0x05) f _ _)

end

/-! ## A frame of an inspected parcel (R86) -/

section
variable {u : State} {f : FlowId} {n : TargetId} {frame : CanFrame} {p : Inspected} {span : FoldSpan}

/-- A frame without a cell ends its parcel (R86, R89). -/
theorem takeInspected_none (none : u.cellFor f = Option.none) {final : Bool} (h : decide (p.declared ≤ p.seen) = final) :
    u.takeInspected f n frame p span = u.endBroken f n final := by
  unfold State.takeInspected
  dsimp only
  rw [none, h]
  exact endBroken_setRecord u f _ n _

/-- The state after a frame was copied to a cell for the engine (R86). -/
def copiedFrame (u : State) (f : FlowId) (frame : CanFrame) (p : Inspected) (span : FoldSpan) (final : Bool)
    (x : CellId) : State :=
  ((u.setCell x ⟨true, inspectedContent frame span final, false⟩).setFlow f ((u.flow f).joinCell x p final)).wakeEngine
    (.flow f)

theorem takeInspected_final {x : CellId} (some : u.cellFor f = Option.some x) (final : p.declared ≤ p.seen) :
    u.takeInspected f n frame p span = copiedFrame u f frame p span true x := by
  unfold State.takeInspected
  dsimp only
  rw [some, decide_eq_true final]
  exact if_pos final

theorem takeInspected_more {x : CellId} (some : u.cellFor f = Option.some x) (more : p.seen < p.declared) :
    u.takeInspected f n frame p span = (copiedFrame u f frame p span false x).passInspected f n frame p := by
  unfold State.takeInspected
  dsimp only
  rw [some, decide_eq_false (not_le.mpr more)]
  exact if_neg (not_le.mpr more)

theorem passInspected_room (sound : (u.target n).parityBad = false)
    (room : u.room (u.target n).segment.port .dialogue = true) : u.passInspected f n frame p =
      (Enqueued u (u.target n).segment.port .dialogue frame).setRecord f
        (some (.inspected { p with gapDeadline := some (u.now + ms (u.flow f).params.gapLimit) })) := by
  unfold State.passInspected
  rw [if_neg (by rw [sound]; exact Bool.false_ne_true)]
  exact if_pos room

theorem passInspected_full (sound : (u.target n).parityBad = false)
    (full : u.room (u.target n).segment.port .dialogue = false) :
    u.passInspected f n frame p = u.endBroken f n false := by
  unfold State.passInspected
  rw [if_neg (by rw [sound]; exact Bool.false_ne_true)]
  exact if_neg (Bool.eq_false_iff.mp full)

variable (u f frame p span) in
/-- A copy changes the cells, the flow's context and the engine alone. -/
theorem copiedFrame_eq (final : Bool) (x : CellId) : ∃ e, copiedFrame u f frame p span final x =
    { (u.setCell x ⟨true, inspectedContent frame span final, false⟩).setFlow f ((u.flow f).joinCell x p final) with
      engine := e } :=
  wakeEngine_eq _ _

variable (u f frame p span) in
theorem copiedFrame_view (x : CellId) (q : Port) (k : QueueClass) (n : TargetId) :
    let v := copiedFrame u f frame p span false x
    v.room q k = u.room q k ∧ v.target n = u.target n ∧ v.now = u.now ∧ v.offers = u.offers
      ∧ (v.flow f).params = (u.flow f).params := by
  have params : ((copiedFrame u f frame p span false x).flow f).params = (u.flow f).params := by
    unfold copiedFrame
    rw [wakeEngine_flow, State.flow_setFlow, if_pos rfl]
    rfl
  obtain ⟨e, eq⟩ := copiedFrame_eq u f frame p span false x
  rw [eq] at params ⊢
  exact ⟨rfl, rfl, rfl, rfl, params⟩

/-- A copied frame that has room goes on to the segment, and the gap to the next is timed (R86). -/
theorem takeInspected_forwarded {x : CellId} (some : u.cellFor f = Option.some x) (more : p.seen < p.declared)
    (sound : (u.target n).parityBad = false) (room : u.room (u.target n).segment.port .dialogue = true) :
    u.takeInspected f n frame p span =
      (Enqueued (copiedFrame u f frame p span false x) (u.target n).segment.port .dialogue frame).setRecord f
        (Option.some (.inspected { p with gapDeadline := Option.some (u.now + ms (u.flow f).params.gapLimit) })) := by
  obtain ⟨sameRoom, target, now, -, params⟩ :=
    copiedFrame_view u f frame p span x (u.target n).segment.port .dialogue n
  rw [takeInspected_more some more, passInspected_room (by rw [target]; exact sound) (by rw [target, sameRoom]; exact room),
    target, now, params]

theorem takeInspected_stopped {x : CellId} (some : u.cellFor f = Option.some x) (more : p.seen < p.declared)
    (sound : (u.target n).parityBad = false) (full : u.room (u.target n).segment.port .dialogue = false) :
    u.takeInspected f n frame p span = (copiedFrame u f frame p span false x).endBroken f n false := by
  obtain ⟨sameRoom, target, -, -, -⟩ := copiedFrame_view u f frame p span x (u.target n).segment.port .dialogue n
  rw [takeInspected_more some more, passInspected_full (by rw [target]; exact sound) (by rw [target, sameRoom]; exact full)]

end

/-! ## The first frame of a block (R84 to R86) -/

section
variable {u : State} {f : FlowId} {n : TargetId} {frame : CanFrame}

/-- The context of a flow whose check value starts anew (R85). -/
def freshAcc (u : State) (f : FlowId) : State := u.setFlow f { u.flow f with acc := 0xFFFFFFFF }

theorem freshAcc_flow : (freshAcc u f).flow f = { u.flow f with acc := 0xFFFFFFFF } := by
  unfold freshAcc
  rw [State.flow_setFlow, if_pos rfl]

theorem freshAcc_cellFor : (freshAcc u f).cellFor f = u.cellFor f := by
  unfold State.cellFor
  rw [freshAcc_flow]
  rfl

theorem copiedFrame_freshAcc (p : Inspected) (span : FoldSpan) (final : Bool) (x : CellId) :
    copiedFrame (freshAcc u f) f frame p span final x =
      ((u.setCell x ⟨true, inspectedContent frame span final, false⟩).setFlow f
        (({ u.flow f with acc := 0xFFFFFFFF } : FlowCtx).joinCell x p final)).wakeEngine (.flow f) := by
  unfold copiedFrame
  rw [freshAcc_flow]
  exact congrArg (fun v => State.wakeEngine v (.flow f))
    (setFlow_setFlow (u.setCell x ⟨true, inspectedContent frame span final, false⟩) f _ _)

theorem admitBlock_early {o : OpenRegion} {v : Verdict} (opened : (u.flow f).openRegion = some o)
    (finding : (u.flow f).blockFinding o (blockSeq frame) (blockDataLength frame) = .early v) :
    u.admitBlock f n frame =
      ((RefusedFirst u f n frame .checkFailed (BitVec.ofNat 8 v.code)).setVerdict f v).countFailure f := by
  unfold State.admitBlock
  rw [opened]
  dsimp only
  rw [finding]
  rfl

/-- The record of an inspected parcel at its first frame (R85). -/
def firstInspected (frame : CanFrame) (seen : Nat) (roll : Option (BitVec 6)) (isRepeat : Bool) (k : Nat) : Inspected :=
  ⟨parcelLength frame, seen, roll, none, blockSeq frame, blockDataLength frame, isRepeat, k⟩

variable {o : OpenRegion} {k : Nat} {isRepeat : Bool} (opened : (u.flow f).openRegion = some o)
  (finding : (u.flow f).blockFinding o (blockSeq frame) (blockDataLength frame) = .admitted k isRepeat)
include opened finding

theorem admitBlock_whole (whole : frameKind frame = .whole) : u.admitBlock f n frame =
    (freshAcc u f).takeInspected f n frame (firstInspected frame (parcelLength frame) none isRepeat k)
      ⟨4, blockDataLength frame⟩ := by
  unfold State.admitBlock
  rw [opened]
  dsimp only
  rw [finding]
  unfold State.startInspected firstSpan
  rw [whole]
  rfl

theorem admitBlock_opener (opener : frameKind frame = .opener) : u.admitBlock f n frame =
    (freshAcc u f).takeInspected f n frame (firstInspected frame 61 (some 1) isRepeat k) ⟨5, 59⟩ := by
  unfold State.admitBlock
  rw [opened]
  dsimp only
  rw [finding]
  unfold State.startInspected firstSpan
  rw [opener]
  rfl

end

/-- The declared length of a well-formed OPENER is past its own bytes (R4). -/
theorem opener_declared {frame : CanFrame} (opener : frameKind frame = .opener) (wellFormed : firstMalformed frame = false) :
    61 < parcelLength frame := by
  have size := opener_size opener wellFormed
  have declared : openerLength frame = 256 * (byteAt frame.data 1).toNat + (byteAt frame.data 2).toNat :=
    fieldAt_two (by omega)
  rw [parcelLength_opener opener]
  by_contra short
  have malformed : firstMalformed frame = true :=
    (firstMalformed_opener opener).mpr (Or.inr ((openerMalformed_iff frame).mpr (Or.inr (Or.inr (Or.inl (by omega))))))
  rw [malformed] at wellFormed
  exact absurd wellFormed (by decide)

/-- Settles O23, by the block checks and what a first frame's copy and its way to the segment make of the flow. -/
theorem blockTakenAtItsFirstFrame : Obligations.BlockTakenAtItsFirstFrame := by
  unfold Obligations.BlockTakenAtItsFirstFrame
  intro s t frame f n o arrival admissible opened
  have sound := AdmissionArrival_sound (t := t) arrival
  have region := (State.replaceRecord_openRegion (Received s t .trunk) f).trans opened
  have finding := State.replaceRecord_blockFinding (Received s t .trunk) f o (blockSeq frame) (blockDataLength frame)
  have offersNil : ((Received s t .trunk).replaceRecord f).offers = [] :=
    (replaceRecord_offers _ f).trans arrival.arrival.running.offered
  have block : ∀ u : State, u.admitSpecific f n frame .block = u.admitBlock f n frame := fun _ => rfl
  rw [exec_admissible t arrival admissible, block]
  refine ⟨fun v early => ?early, fun k isRepeat x admitted given whole => ?whole, fun k isRepeat admitted none => ?none,
    fun k isRepeat x admitted given opener => ?opener⟩
  case early => rw [admitBlock_early region (finding.trans early)]
  case whole =>
    rw [admitBlock_whole region (finding.trans admitted) whole,
      takeInspected_final (freshAcc_cellFor.trans ((cellFor_eq_some_iff _ f x).mpr given)) (Nat.le_refl _),
      copiedFrame_freshAcc]
    exact congrArg _ (State.trunkTakes_nil _ ((State.wakeEngine_offers _ _).trans offersNil))
  case none =>
    have noCell := freshAcc_cellFor.trans (cellFor_none_of_not_given none)
    obtain whole | opener := arrival.first
    · rw [admitBlock_whole region (finding.trans admitted) whole,
        takeInspected_none noCell (decide_eq_decide.mpr (iff_of_true (Nat.le_refl _) whole))]
      rfl
    · have more : 61 < parcelLength frame := opener_declared opener admissible.wellFormed
      have notWhole : frameKind frame ≠ .whole := by
        rw [opener]
        decide
      rw [admitBlock_opener region (finding.trans admitted) opener,
        takeInspected_none noCell (decide_eq_decide.mpr (iff_of_false (not_le.mpr more) notWhole))]
      rfl
  case opener =>
    have more : (firstInspected frame 61 (some 1) isRepeat k).seen < (firstInspected frame 61 (some 1) isRepeat k).declared :=
      opener_declared opener admissible.wellFormed
    have cell := freshAcc_cellFor.trans ((cellFor_eq_some_iff _ f x).mpr given)
    have now : (freshAcc ((Received s t .trunk).replaceRecord f) f).now = max s.now t := State.replaceRecord_now _ f
    have target : (freshAcc ((Received s t .trunk).replaceRecord f) f).target n = s.target n :=
      State.replaceRecord_target _ f n
    have params : ((freshAcc ((Received s t .trunk).replaceRecord f) f).flow f).params = (s.flow f).params := by
      rw [freshAcc_flow]
      exact State.replaceRecord_params (Received s t .trunk) f
    rw [admitBlock_opener region (finding.trans admitted) opener]
    refine ⟨fun room => ?room, fun full => ?full⟩
    case room =>
      rw [takeInspected_forwarded cell more sound (by rw [target]; exact room), target, now, params, copiedFrame_freshAcc]
      exact congrArg _ (State.trunkTakes_nil _ ((State.wakeEngine_offers _ _).trans offersNil))
    case full =>
      rw [takeInspected_stopped cell more sound (by rw [target]; exact full), copiedFrame_freshAcc]
      rfl

/-! ## Other frames at the record (R71, R73, R75) -/

section
variable {u : State} {f : FlowId} {n : TargetId} {frame : CanFrame}

theorem recordTakes_pace (pace : frameKind frame = .pace) :
    u.recordTakes f n frame = u.offer (u.target n).segment.port .dialogue frame := by
  unfold State.recordTakes
  rw [pace]
  rfl

theorem recordTakes_carrier (carrier : frameKind frame = .carrier) :
    u.recordTakes f n frame = u.recordCarrier f n frame := by
  unfold State.recordTakes
  rw [carrier]

theorem recordTakes_other (first : frameKind frame = .whole ∨ frameKind frame = .opener)
    (other : UpdateCode.ofByte (requestCode frame) = none) :
    u.recordTakes f n frame = (u.replaceRecord f).otherDialogue f n frame := by
  unfold State.recordTakes State.recordFirst
  obtain kind | kind := first
  · rw [kind, other]
  · rw [kind, other]

theorem otherDialogue_forwarded (wellFormed : firstMalformed frame = false)
    (room : u.room (u.target n).segment.port .dialogue = true) : u.otherDialogue f n frame =
      (Enqueued u (u.target n).segment.port .dialogue frame).setRecord f
        (if frameKind frame = .opener then some (.passing (openerLength frame) 61) else none) := by
  unfold State.otherDialogue
  rw [if_neg (Bool.eq_false_iff.mp wellFormed)]
  exact if_pos room

theorem otherDialogue_dropped
    (h : firstMalformed frame = true ∨ u.room (u.target n).segment.port .dialogue = false) :
    u.otherDialogue f n frame = u.setRecord f (if frameKind frame = .opener then some .refused else none) := by
  unfold State.otherDialogue
  obtain malformed | full := h
  · exact if_pos malformed
  · split
    · rfl
    · exact if_neg (Bool.eq_false_iff.mp full)

theorem recordCarrier_passing {declared seen : Nat} (record : (u.flow f).record = some (.passing declared seen)) :
    u.recordCarrier f n frame = u.passingCarrier f n frame declared seen := by
  unfold State.recordCarrier
  rw [record]

theorem recordCarrier_dropped (h : (u.flow f).record = none ∨ (u.flow f).record = some .refused
    ∨ (∃ g, (u.flow f).record = some (.gated g))
    ∨ ((∃ p, (u.flow f).record = some (.inspected p)) ∧ (u.flow f).held.isSome = true)) :
    u.recordCarrier f n frame = u := by
  unfold State.recordCarrier
  obtain record | record | ⟨g, record⟩ | ⟨⟨p, record⟩, held⟩ := h
  · rw [record]
  · rw [record]
  · rw [record]
  · rw [record]
    exact if_pos held

theorem readable_of_data (fd : frame.fd = true) (data : frame.data ≠ []) : carrierUnreadable frame = false := by
  rw [Bool.eq_false_iff, ne_eq, carrierUnreadable_iff, fd]
  rintro (classical | empty)
  · exact absurd classical (by decide)
  · exact data empty

theorem passingCarrier_forwarded {declared seen : Nat} (readable : carrierUnreadable frame = false)
    (room : u.room (u.target n).segment.port .dialogue = true) : u.passingCarrier f n frame declared seen =
      (Enqueued u (u.target n).segment.port .dialogue frame).setRecord f
        (if declared ≤ seen + min (min 63 (declared - seen)) (frame.data.length - 1) then none
          else some (.passing declared (seen + min (min 63 (declared - seen)) (frame.data.length - 1)))) := by
  unfold State.passingCarrier
  rw [if_neg (Bool.eq_false_iff.mp readable)]
  exact if_pos room

theorem passingCarrier_refused {declared seen : Nat}
    (h : frame.fd = false ∨ frame.data = [] ∨ u.room (u.target n).segment.port .dialogue = false) :
    u.passingCarrier f n frame declared seen = u.setRecord f (some .refused) := by
  unfold State.passingCarrier
  by_cases unreadable : carrierUnreadable frame = true
  · exact if_pos unreadable
  · rw [if_neg unreadable]
    obtain classical | empty | full := h
    · exact absurd ((carrierUnreadable_iff frame).mpr (Or.inl classical)) unreadable
    · exact absurd ((carrierUnreadable_iff frame).mpr (Or.inr empty)) unreadable
    · exact if_neg (Bool.eq_false_iff.mp full)

end

/-- Settles O24, by the kind of the frame and the record of the flow. -/
theorem otherFramesAtTheRecord : Obligations.OtherFramesAtTheRecord := by
  unfold Obligations.OtherFramesAtTheRecord
  intro s t frame f n arrival
  have offersNil : (Received s t .trunk).offers = [] := arrival.arrival.running.offered
  have replacedNil : ((Received s t .trunk).replaceRecord f).offers = [] := (replaceRecord_offers _ f).trans offersNil
  have target := State.replaceRecord_target (Received s t .trunk) f n
  rw [exec_recordArrival t arrival]
  refine ⟨fun pace => ?pace, fun first other wellFormed room => ?forwarded, fun first other h => ?dropped,
    fun declared seen carrier record fd data room => ?passing, fun declared seen carrier record h => ?refused,
    fun carrier h => ?idle⟩
  case pace =>
    rw [recordTakes_pace pace]
    exact congrArg _ (State.trunkTakes_nil _ ((State.offer_offers _ _ _ _).trans offersNil))
  case forwarded =>
    rw [recordTakes_other first other, otherDialogue_forwarded wellFormed (by rw [target]; exact room), target]
    exact congrArg _ (State.trunkTakes_nil _ replacedNil)
  case dropped =>
    rw [recordTakes_other first other, otherDialogue_dropped (by rw [target]; exact h)]
    exact congrArg _ (State.trunkTakes_nil _ replacedNil)
  case passing =>
    rw [recordTakes_carrier carrier, recordCarrier_passing (u := Received s t .trunk) record,
      passingCarrier_forwarded (u := Received s t .trunk) (readable_of_data fd data) room]
    exact congrArg _ (State.trunkTakes_nil _ offersNil)
  case refused =>
    rw [recordTakes_carrier carrier, recordCarrier_passing (u := Received s t .trunk) record,
      passingCarrier_refused (u := Received s t .trunk) h]
    exact congrArg _ (State.trunkTakes_nil _ offersNil)
  case idle =>
    rw [recordTakes_carrier carrier, recordCarrier_dropped (u := Received s t .trunk) h]
    exact congrArg _ (State.trunkTakes_nil _ offersNil)

/-! ## The carriers of an inspected parcel (R87) -/

section
variable {u : State} {f : FlowId} {n : TargetId} {frame : CanFrame} {p : Inspected}

theorem recordCarrier_inspected (record : (u.flow f).record = some (.inspected p)) (notHeld : (u.flow f).held = none) :
    u.recordCarrier f n frame = u.inspectedCarrier f n frame p := by
  unfold State.recordCarrier FlowCtx.finalTaken
  rw [record, notHeld]
  rfl

/-- A carrier that goes on with its parcel (R87). -/
def SoundCarrier (frame : CanFrame) (p : Inspected) : Prop :=
  frame.fd = true ∧ frame.data ≠ [] ∧ p.nextRoll = some (rollIndex frame)
    ∧ min 63 (p.declared - p.seen) < frame.data.length

/-- The record after a carrier (R87). -/
def carried (p : Inspected) (frame : CanFrame) : Inspected :=
  { p with seen := p.seen + min 63 (p.declared - p.seen), nextRoll := some (rollIndex frame + 1) }

theorem inspectedCarrier_sound (sound : SoundCarrier frame p) : u.inspectedCarrier f n frame p =
    u.takeInspected f n frame (carried p frame) ⟨1, min 63 (p.declared - p.seen)⟩ := by
  obtain ⟨fd, data, roll, long⟩ := sound
  have room : ¬ carrierRoom frame < carrierShare p.declared p.seen := by
    unfold carrierRoom carrierShare
    omega
  unfold State.inspectedCarrier
  dsimp only
  rw [if_neg (Bool.eq_false_iff.mp (readable_of_data fd data)), if_neg (not_not.mpr roll), if_neg room]
  rfl

theorem inspectedCarrier_unsound (unsound : ¬ SoundCarrier frame p) :
    u.inspectedCarrier f n frame p = u.endBroken f n false := by
  unfold State.inspectedCarrier
  dsimp only
  split
  · rfl
  · next readable =>
    split
    · rfl
    · next roll =>
      refine if_pos ?_
      by_contra room
      have data : frame.data ≠ [] := fun empty => readable ((carrierUnreadable_iff frame).mpr (Or.inr empty))
      have fd : frame.fd = true :=
        Bool.eq_true_of_not_eq_false fun classical => readable ((carrierUnreadable_iff frame).mpr (Or.inl classical))
      refine unsound ⟨fd, data, not_not.mp roll, ?_⟩
      have size : 0 < frame.data.length := List.length_pos_iff.mpr data
      unfold carrierRoom carrierShare at room
      omega

end

/-- Settles O25, by the checks of a carrier and what its copy and its way to the segment make of the flow. -/
theorem carriersOfAnInspectedParcel : Obligations.CarriersOfAnInspectedParcel := by
  unfold Obligations.CarriersOfAnInspectedParcel
  intro s t frame f n p arrival carrier record notHeld
  have offersNil : (Received s t .trunk).offers = [] := arrival.arrival.running.offered
  have target : ((Received s t .trunk).target n).parityBad = false := arrival.arrival.sound n arrival.request.valid
  have cell {x : CellId} (given : CellGiven (Received s t .trunk) f x) :
      (Received s t .trunk).cellFor f = some x := (cellFor_eq_some_iff _ f x).mpr given
  rw [exec_recordArrival t arrival, recordTakes_carrier carrier,
    recordCarrier_inspected (u := Received s t .trunk) record notHeld]
  refine ⟨fun unsound => ?unsound, fun sound none => ?none, fun x sound given more room => ?forwarded,
    fun x sound given more full => ?stopped, fun x sound given final => ?final⟩
  case unsound => rw [inspectedCarrier_unsound unsound]
  case none =>
    rw [inspectedCarrier_sound sound, takeInspected_none (cellFor_none_of_not_given none) rfl]
    rfl
  case forwarded =>
    rw [inspectedCarrier_sound sound,
      takeInspected_forwarded (u := Received s t .trunk) (p := carried p frame) (cell given) more target room]
    exact congrArg _ (State.trunkTakes_nil _ ((State.wakeEngine_offers _ _).trans offersNil))
  case stopped =>
    rw [inspectedCarrier_sound sound,
      takeInspected_stopped (u := Received s t .trunk) (p := carried p frame) (cell given) more target full]
    rfl
  case final =>
    rw [inspectedCarrier_sound sound,
      takeInspected_final (u := Received s t .trunk) (p := carried p frame) (cell given) final]
    exact congrArg _ (State.trunkTakes_nil _ ((State.wakeEngine_offers _ _).trans offersNil))

end Sys2Proof.Proofs
end

section
/-! Responses and deadlines of a pending request (C3): O26, O27, O28 and O29 (R10, R47 to R59, R65, R88, R89). -/

namespace Sys2Proof.Proofs
open Sys2Proof.Machine

/-! ## The classes of a response (R10, R48) -/

theorem answeredBy_iff (k : PendingKind) (r : Response) : k.answeredBy r = true ↔ Answers k r := by
  unfold PendingKind.answeredBy Answers
  cases r with
  | positive code echo =>
    dsimp only
    rw [Bool.and_eq_true, beq_iff_eq]
    refine and_congr Iff.rfl ?_
    cases k with
    | block seq n again =>
      dsimp only
      rw [beq_iff_eq]
      constructor
      · rintro rfl seq' n' again' same
        cases same
        rfl
      · exact fun h => h seq n again rfl
    | erase r | open_ o | close r | abandon r | activate => exact iff_of_true rfl fun _ _ _ other => nomatch other
  | refusal code reason => exact beq_iff_eq
  | wait code => exact beq_iff_eq

theorem payloadStart_eq (frame : CanFrame) : payloadStart frame = if frameKind frame = .opener then 3 else 2 := by
  unfold payloadStart
  cases kind : frameKind frame <;> rfl

theorem responsePayload_eq (frame : CanFrame) : responsePayload frame =
    (frame.data.drop (if frameKind frame = .opener then 3 else 2)).take (parcelLength frame) := by
  unfold responsePayload
  rw [payloadStart_eq]

theorem isWholeRefusal_iff (frame : CanFrame) : isWholeRefusal frame = true ↔
    frame.fd = true ∧ frameKind frame = .whole ∧ (responsePayload frame).head? = some 0xF1 := by
  unfold isWholeRefusal
  rw [Bool.and_eq_true, Bool.and_eq_true, beq_iff_eq, beq_iff_eq, and_assoc]

theorem responseOf_read {frame : CanFrame}
    (read : frame.fd = true ∧ (frameKind frame = .whole ∨ frameKind frame = .opener)) :
    responseOf frame = classOf (responsePayload frame) := by
  obtain ⟨fd, whole | opener⟩ := read
  · unfold responseOf
    rw [if_pos fd, whole]
  · unfold responseOf
    rw [if_pos fd, opener]

theorem responseOf_unread {frame : CanFrame}
    (unread : ¬ (frame.fd = true ∧ (frameKind frame = .whole ∨ frameKind frame = .opener))) :
    responseOf frame = none := by
  unfold responseOf
  split
  · next fd =>
    cases kind : frameKind frame with
    | whole => exact absurd ⟨fd, Or.inl kind⟩ unread
    | opener => exact absurd ⟨fd, Or.inr kind⟩ unread
    | carrier => rfl
    | pace => rfl
  · rfl

theorem classOf_positiveCode {c : Byte} (low : 0x81 ≤ c.toNat) (high : c.toNat ≤ 0x86) (rest : List Byte) :
    classOf (c :: rest) = match rest with
      | [] => if c = 0x83 then none else some (.positive c 0)
      | echo :: _ => some (.positive c echo) := by
  have notRefusal : c ≠ 0xF1 := by
    rintro rfl
    exact absurd high (by decide)
  have notWait : c ≠ 0xF2 := by
    rintro rfl
    exact absurd high (by decide)
  unfold classOf
  dsimp only
  rw [if_neg notRefusal, if_neg notWait]
  exact if_pos ⟨low, high⟩

theorem classOf_other {c : Byte} (notRefusal : c ≠ 0xF1) (notWait : c ≠ 0xF2)
    (outside : c.toNat < 0x81 ∨ 0x86 < c.toNat) (rest : List Byte) : classOf (c :: rest) = none := by
  unfold classOf
  dsimp only
  rw [if_neg notRefusal, if_neg notWait]
  exact if_neg fun inside => by omega

theorem ofByte_isSome_iff (code : Byte) :
    (UpdateCode.ofByte code).isSome = true ↔ 0x61 ≤ code.toNat ∧ code.toNat ≤ 0x66 := by
  rw [Option.isSome_iff_exists]
  constructor
  · rintro ⟨c, named⟩
    rw [code_of_ofByte named]
    cases c <;> decide
  · rintro ⟨low, high⟩
    unfold UpdateCode.ofByte
    generalize code.toNat = m at low high
    interval_cases m <;> exact ⟨_, rfl⟩

/-! ## A response at the flow bound to its target (R48, R57) -/

section
variable (u : State) (f : FlowId) (n : TargetId)

/-- A record that a refusal ends leaves the flow's standing as it was. -/
theorem refusalEndsRecord_standing (g : FlowId) : ((u.refusalEndsRecord f).flow g).standing = (u.flow g).standing := by
  have silent (r : Option ParcelRecord) : ((u.endSilently f r).flow g).standing = (u.flow g).standing := by
    unfold State.endSilently State.dropParcelWork
    by_cases same : g = f
    · subst same
      simp [FlowCtx.standing]
    · simp [same]
  have marked (r : Option ParcelRecord) : ((u.setRecord f r).flow g).standing = (u.flow g).standing := by
    by_cases same : g = f
    · subst same
      simp [FlowCtx.standing]
    · simp [same]
  unfold State.refusalEndsRecord
  split
  · split
    · rfl
    · exact silent _
  · exact marked _
  · rfl

theorem targetRefusal_standing (g : FlowId) : ((u.targetRefusal n).flow g).standing = (u.flow g).standing := by
  unfold State.targetRefusal
  dsimp only
  split
  · exact refusalEndsRecord_standing (u.setTracker n .none) _ g
  · rfl

theorem params_of_binding {c d : FlowCtx} (same : c.binding = d.binding) : c.params = d.params := by
  unfold FlowCtx.params
  rw [same]

/-- What a refusal ends before its response is matched (R7). -/
def afterRefusal (u : State) (n : TargetId) (frame : CanFrame) : State :=
  if isWholeRefusal frame then u.targetRefusal n else u

variable (frame : CanFrame)

theorem afterRefusal_standing (g : FlowId) : ((afterRefusal u n frame).flow g).standing = (u.flow g).standing := by
  unfold afterRefusal
  split
  · exact targetRefusal_standing u n g
  · rfl

theorem afterRefusal_now : (afterRefusal u n frame).now = u.now := by
  unfold afterRefusal
  split
  · exact kept_field Kept.now (u.targetRefusal_kept n)
  · rfl

/-- Flows of the same standing are bound to the same targets. -/
theorem boundTo_of_standing {v : State} (same : ∀ g, (v.flow g).standing = (u.flow g).standing) {f : FlowId}
    (h : BoundTo u f n) : BoundTo v f n := by
  have state (g : FlowId) : (v.flow g).state = (u.flow g).state := congrArg Standing.state (same g)
  have target (g : FlowId) : (v.flow g).target = (u.flow g).target :=
    congrArg (fun k : Standing => k.binding.map Binding.target) (same g)
  refine ⟨by rw [state]; exact h.bound, by rw [target]; exact h.target, fun g bound named => h.only g ?_ ?_⟩
  · rwa [state] at bound
  · rwa [target] at named

theorem unbound_of_standing {v : State} (same : ∀ g, (v.flow g).standing = (u.flow g).standing) (h : Unbound u n) :
    Unbound v n := by
  intro g
  have state : (v.flow g).state = (u.flow g).state := congrArg Standing.state (same g)
  have target : (v.flow g).target = (u.flow g).target :=
    congrArg (fun k : Standing => k.binding.map Binding.target) (same g)
  rw [state, target]
  exact h g

theorem dialogueResponse_unbound (h : Unbound u n) :
    u.dialogueResponse n frame = (afterRefusal u n frame).offerTrunk .dialogue frame := by
  have none : (afterRefusal u n frame).boundFlow n = Option.none :=
    (boundFlow_none _).mpr (unbound_of_standing u n (afterRefusal_standing u n frame) h)
  show State.offerTrunk (match (afterRefusal u n frame).boundFlow n, responseOf frame with
    | some f, some r => (afterRefusal u n frame).takeResponse f r
    | _, _ => afterRefusal u n frame) .dialogue frame = _
  rw [none]

variable {f} in
theorem dialogueResponse_unread (response : responseOf frame = none) :
    u.dialogueResponse n frame = (afterRefusal u n frame).offerTrunk .dialogue frame := by
  show State.offerTrunk (match (afterRefusal u n frame).boundFlow n, responseOf frame with
    | some f, some r => (afterRefusal u n frame).takeResponse f r
    | _, _ => afterRefusal u n frame) .dialogue frame = _
  rw [response]
  cases (afterRefusal u n frame).boundFlow n <;> rfl

variable {f} in
theorem dialogueResponse_bound (h : BoundTo u f n) {r : Response} (response : responseOf frame = some r) :
    u.dialogueResponse n frame = ((afterRefusal u n frame).takeResponse f r).offerTrunk .dialogue frame := by
  have bound : (afterRefusal u n frame).boundFlow n = Option.some f :=
    boundFlow_some _ (boundTo_of_standing u n (afterRefusal_standing u n frame) h)
  show State.offerTrunk (match (afterRefusal u n frame).boundFlow n, responseOf frame with
    | some f, some r => (afterRefusal u n frame).takeResponse f r
    | _, _ => afterRefusal u n frame) .dialogue frame = _
  rw [bound, response]

theorem takeResponse_matched {q : PendingReq} {r : Response} (pending : (u.flow f).pendingReq = some q)
    (answers : Answers q.kind r) : u.takeResponse f r = u.matchResponse f q r := by
  unfold State.takeResponse
  rw [pending]
  exact if_pos ((answeredBy_iff _ _).mpr answers)

theorem lateResponse_eq (r : Response) : u.lateResponse f r = match lateOf r with
    | some l => u.setFlow f { u.flow f with late := some l }
    | none => u := by
  unfold State.lateResponse
  cases lateOf r <;> rfl

theorem takeResponse_late {r : Response} (late : ∀ q, (u.flow f).pendingReq = some q → ¬ Answers q.kind r) :
    u.takeResponse f r = u.lateResponse f r := by
  unfold State.takeResponse
  cases pending : (u.flow f).pendingReq with
  | none => rfl
  | some q => exact if_neg fun answered => late q pending ((answeredBy_iff _ _).mp answered)

end

/-- A response identifier at its segment's port goes to the target's dialogue (R1, R48). -/
theorem exec_responseArrival {s : State} (t : Time) {frame : CanFrame} {n : TargetId} (response : ResponseOf s frame n)
    (arrival : RoutingArrival s (s.target n).segment.port frame) :
    exec (.frameArrival t (s.target n).segment.port frame) s =
      .next ((Received s t (s.target n).segment.port).dialogueResponse n frame).trunkTakes := by
  rw [exec_routingArrival s t arrival, requestTarget_none s response.noRequest]
  dsimp only
  rw [responseTarget_some s response]
  dsimp only
  rw [if_pos rfl]

/-- Settles O26, by the flow a response reaches and whether it answers the pending request; and by the bytes of its payload. -/
theorem responsesAct : Obligations.ResponsesAct := by
  unfold Obligations.ResponsesAct
  refine ⟨fun s t frame n response arrival => ?acts, fun frame => ?classes, fun r o seq k again => rfl,
    fun code reason => ⟨fun echo => rfl, fun update => ?late, fun other => ?notLate⟩⟩
  case acts =>
    have standing := afterRefusal_standing (Received s t (s.target n).segment.port) n frame
    have now : (afterRefusal (Received s t (s.target n).segment.port) n frame).now = max s.now t :=
      afterRefusal_now (Received s t (s.target n).segment.port) n frame
    dsimp only
    rw [exec_responseArrival t response arrival]
    refine ⟨fun unbound => ?unbound, fun f bound => ?bound⟩
    case unbound => rw [dialogueResponse_unbound (Received s t (s.target n).segment.port) n frame unbound]; rfl
    case bound =>
      have bound' : BoundTo (Received s t (s.target n).segment.port) f n := ⟨bound.bound, bound.target, bound.only⟩
      have pending : ((afterRefusal (Received s t (s.target n).segment.port) n frame).flow f).pendingReq =
          (s.flow f).pendingReq := congrArg Standing.pendingReq (standing f)
      refine ⟨fun unread => ?unread, fun q code echo asked read answers => ?positive,
        fun q code reason asked read answers => ?refusal, fun q code asked read answers => ?wait, fun r read unanswered => ?unanswered⟩
      case unread => rw [dialogueResponse_unread (Received s t (s.target n).segment.port) n frame unread]; rfl
      case positive =>
        rw [dialogueResponse_bound _ n frame bound' read, takeResponse_matched _ f (pending.trans asked) answers]
        rfl
      case refusal =>
        rw [dialogueResponse_bound _ n frame bound' read, takeResponse_matched _ f (pending.trans asked) answers]
        exact congrArg (fun v => Host.Outcome.next (State.trunkTakes ((State.onRefusal v f q.kind).offerTrunk .dialogue frame)))
          (mapFlow_mapFlow _ f _ _)
      case wait =>
        have params : ((afterRefusal (Received s t (s.target n).segment.port) n frame).flow f).params = (s.flow f).params :=
          params_of_binding (congrArg Standing.binding (standing f))
        rw [dialogueResponse_bound _ n frame bound' read, takeResponse_matched _ f (pending.trans asked) answers,
          ← now, ← params]
        rfl
      case unanswered =>
        rw [dialogueResponse_bound _ n frame bound' read, takeResponse_late _ f (by rw [pending]; exact unanswered),
          lateResponse_eq]
        rfl
  case classes =>
    rw [← responsePayload_eq]
    refine ⟨isWholeRefusal_iff frame, responseOf_unread, fun code reason rest read payload => ?refusal,
      fun code rest read payload => ?wait, fun code echo rest read low high payload => ?positive,
      fun code read low high notBlock payload => ?positiveAlone, fun read h => ?none⟩
    case refusal =>
      rw [responseOf_read read, payload]
      rfl
    case wait =>
      rw [responseOf_read read, payload]
      rfl
    case positive => rw [responseOf_read read, payload, classOf_positiveCode low high]
    case positiveAlone =>
      rw [responseOf_read read, payload, classOf_positiveCode low high]
      exact if_neg notBlock
    case none =>
      rw [responseOf_read read]
      obtain empty | block | refusal | ⟨code, refusal⟩ | wait | ⟨code, rest, payload, notRefusal, notWait, outside⟩ := h
      · rw [empty]
        rfl
      · rw [block]
        rfl
      · rw [refusal]
        rfl
      · rw [refusal]
        rfl
      · rw [wait]
        rfl
      · rw [payload, classOf_other notRefusal notWait outside]
  case late =>
    have named := (ofByte_isSome_iff code).mpr update
    exact ⟨if_pos named, if_pos named⟩
  case notLate =>
    have unnamed := fun named => other ((ofByte_isSome_iff code).mp named)
    exact ⟨if_neg unnamed, if_neg unnamed⟩

/-! ## What an answer makes of the flow (R51 to R56, R65) -/

section
variable (s : State) (f : FlowId)

variable {s f} in
theorem setRegion_mapFlow {b : Binding} (binding : (s.flow f).binding = some b) (r : Nat) (k : RegionState)
    (g : FlowCtx → FlowCtx) : (s.setRegion f r k).mapFlow f g =
      s.setFlow f (g { s.flow f with binding := some { b with regions := b.regions.set r k } }) := by
  have named : (s.flow f).binding.map (fun b => { b with regions := b.regions.set r k }) =
      some { b with regions := b.regions.set r k } := by
    rw [binding]
    rfl
  refine (mapFlow_mapFlow s f _ _).trans ?_
  unfold State.mapFlow
  dsimp only
  rw [named]

variable {s f} in
theorem params_eq {b : Binding} (binding : (s.flow f).binding = some b) : (s.flow f).params = b.params := by
  unfold FlowCtx.params
  rw [binding]

variable {s f} in
theorem setRegion_idle {b : Binding} (binding : (s.flow f).binding = some b) (r : Nat) (k : RegionState) :
    (s.setRegion f r k).setFlowState f .idle =
      s.setFlow f { s.flow f with binding := some { b with regions := b.regions.set r k }, state := .idle } :=
  setRegion_mapFlow binding r k fun c => { c with state := .idle }

variable {s f} in
theorem setRegion_closed {b : Binding} (binding : (s.flow f).binding = some b) (r : Nat) (k : RegionState) :
    (s.setRegion f r k).closeToIdle f = s.setFlow f
      { s.flow f with binding := some { b with regions := b.regions.set r k }, openRegion := none, state := .idle } :=
  setRegion_mapFlow binding r k fun c => { c with openRegion := none, state := .idle }

variable {s f} in
theorem opened_eq {b : Binding} (binding : (s.flow f).binding = some b) (o : OpenRegion) : s.opened f o = s.setFlow f
    { s.flow f with
      binding := some { b with regions := b.regions.set o.region .opened }, openRegion := some o, expectedSeq := 1,
      lastAccepted := none, acceptedBlocks := 0, acceptedBytes := 0, sinceProgress := 0, acc := 0xFFFFFFFF,
      state := .loading } :=
  setRegion_mapFlow binding o.region .opened fun c =>
    { c with
      openRegion := some o, expectedSeq := 1, lastAccepted := none, acceptedBlocks := 0, acceptedBytes := 0,
      sinceProgress := 0, acc := accPreset, state := .loading }

/-- The flow after one more accepted block (R53). -/
def accepted (c : FlowCtx) (seq : Byte) (n : Nat) : FlowCtx :=
  { c with
    acceptedBlocks := c.acceptedBlocks + 1, acceptedBytes := c.acceptedBytes + n, lastAccepted := some seq,
    expectedSeq := seq + 1, failures := 0 }

variable {s f} in
theorem acceptBlock_uncounted {b : Binding} (binding : (s.flow f).binding = some b) (off : b.params.progressInterval = 0)
    (seq : Byte) (n : Nat) : s.acceptBlock f seq n = s.setFlow f (accepted (s.flow f) seq n) := by
  have interval : ((s.setFlow f (accepted (s.flow f) seq n)).flow f).params.progressInterval = 0 := by
    rw [State.flow_setFlow, if_pos rfl]
    exact (congrArg FlowParams.progressInterval (params_eq binding)).trans off
  exact if_pos interval

variable {s f} in
/-- A counted block reports when it completes an interval (R46, R53). -/
theorem acceptBlock_counted {b : Binding} (binding : (s.flow f).binding = some b) (on : b.params.progressInterval ≠ 0)
    (seq : Byte) (n : Nat) : s.acceptBlock f seq n =
      if (s.flow f).sinceProgress + 1 = b.params.progressInterval then
        ((s.setFlow f { accepted (s.flow f) seq n with sinceProgress := (s.flow f).sinceProgress + 1 }).progressAlert
          f).mapFlow f fun c => { c with sinceProgress := 0 }
      else s.setFlow f { accepted (s.flow f) seq n with sinceProgress := (s.flow f).sinceProgress + 1 } := by
  have interval : ((s.setFlow f (accepted (s.flow f) seq n)).flow f).params.progressInterval = b.params.progressInterval := by
    rw [State.flow_setFlow, if_pos rfl]
    exact congrArg FlowParams.progressInterval (params_eq binding)
  have twice : (s.setFlow f (accepted (s.flow f) seq n)).mapFlow f (fun c => { c with sinceProgress := c.sinceProgress + 1 }) =
      s.setFlow f { accepted (s.flow f) seq n with sinceProgress := (s.flow f).sinceProgress + 1 } :=
    mapFlow_mapFlow s f (fun c => accepted c seq n) fun c => { c with sinceProgress := c.sinceProgress + 1 }
  show State.countProgress (s.setFlow f (accepted (s.flow f) seq n)) f = _
  unfold State.countProgress
  dsimp only
  rw [interval, if_neg on, twice, State.flow_setFlow, if_pos rfl]

variable {s f} in
theorem progressAlert_eq {b : Binding} {o : OpenRegion} (binding : (s.flow f).binding = some b)
    (opened : (s.flow f).openRegion = some o) : s.progressAlert f = s.queueAlert (.progress f
      ⟨b.target, o.region, (s.flow f).lastAccepted.getD 0, (s.flow f).acceptedBlocks, (s.flow f).acceptedBytes,
        o.length - (s.flow f).acceptedBytes⟩) := by
  unfold State.progressAlert FlowCtx.remaining
  dsimp only
  rw [binding, opened]

variable {s f} in
theorem finish_eq {b : Binding} (binding : (s.flow f).binding = some b) : s.finish f =
    (s.setFlow f { s.flow f with holds := ⟨false, false⟩, state := .done }).queueAlert
      (.flow f (({ s.flow f with holds := ⟨false, false⟩, state := .done } : FlowCtx).report b (s.flow f).holds)) := by
  have written : (s.setFlow f { s.flow f with holds := ⟨false, false⟩, state := .done }).flow f =
      { s.flow f with holds := ⟨false, false⟩, state := .done } := by rw [State.flow_setFlow, if_pos rfl]
  show State.flowAlert (s.setFlow f { s.flow f with holds := ⟨false, false⟩, state := .done }) f (s.flow f).holds = _
  rw [flowAlert_of_binding (b := b), written]
  rw [written]
  exact binding

theorem complete_iff {c : FlowCtx} {o : OpenRegion} (opened : c.openRegion = some o) :
    c.complete = true ↔ c.acceptedBlocks = o.checkCount ∧ c.acceptedBytes = o.length := by
  unfold FlowCtx.complete
  rw [opened]
  dsimp only
  rw [Bool.and_eq_true, beq_iff_eq, beq_iff_eq]

end

/-- Settles O27, by the kind of the pending request. -/
theorem responseOutcomes : Obligations.ResponseOutcomes := by
  unfold Obligations.ResponseOutcomes
  refine ⟨fun s f b binding => ⟨fun r => setRegion_idle binding r _, opened_eq binding, fun seq n => rfl,
    fun seq n quiet => ?counted, fun seq n o opened full => ?reports, fun r o opened => ?closes,
    fun r => setRegion_idle binding r _, ?finishes⟩,
    fun s f b binding => ⟨fun r => setRegion_idle binding r _, fun o => rfl, fun seq n again => rfl,
      fun r => setRegion_closed binding r _, fun r => setRegion_idle binding r _, rfl⟩⟩
  case counted =>
    show s.acceptBlock f seq n = _
    by_cases off : b.params.progressInterval = 0
    · rw [acceptBlock_uncounted binding off, if_pos off]
      rfl
    · rw [acceptBlock_counted binding off, if_neg (quiet.resolve_left off), if_neg off]
      rfl
  case reports =>
    have on : b.params.progressInterval ≠ 0 := by omega
    have written : (s.setFlow f { accepted (s.flow f) seq n with sinceProgress := (s.flow f).sinceProgress + 1 }).flow f =
        { accepted (s.flow f) seq n with sinceProgress := (s.flow f).sinceProgress + 1 } := by
      rw [State.flow_setFlow, if_pos rfl]
    show s.acceptBlock f seq n = _
    rw [acceptBlock_counted binding on, if_pos full, progressAlert_eq (b := b) (o := o) (by rw [written]; exact binding)
      (by rw [written]; exact opened), written]
    exact mapFlow_mapFlow (s.queueAlert _) f
      (fun c => { accepted c seq n with sinceProgress := c.sinceProgress + 1 }) fun c => { c with sinceProgress := 0 }
  case closes =>
    refine (setRegion_closed binding r _).trans ?_
    simp only [complete_iff opened]
  case finishes =>
    show s.finish f = _
    rw [finish_eq binding]
    rfl

/-! ## A pending deadline (R50) -/

section
variable {s : State} {f : FlowId}

theorem pendingExpiry_due {k : PendingKind} {d : Time} (pending : (s.flow f).pendingReq = some ⟨k, d⟩) (due : d ≤ s.now) :
    s.pendingExpiry f = (s.clearPending f).onExpiry f k := by
  unfold State.pendingExpiry
  rw [pending]
  exact if_pos due

theorem pendingExpiry_early (early : ∀ q, (s.flow f).pendingReq = some q → s.now < q.deadline) :
    s.pendingExpiry f = s := by
  unfold State.pendingExpiry
  cases pending : (s.flow f).pendingReq with
  | none => rfl
  | some q => exact if_neg (not_le.mpr (early q pending))

/-- A region's state and the flow's own change after the pending request is cleared, in one update. -/
theorem clearPending_setRegion {b : Binding} (binding : (s.flow f).binding = some b) (r : Nat) (k : RegionState)
    (g : FlowCtx → FlowCtx) : ((s.clearPending f).setRegion f r k).mapFlow f g = s.setFlow f
      (g { s.flow f with pendingReq := none, binding := some { b with regions := b.regions.set r k } }) := by
  have cleared : (s.clearPending f).flow f = { s.flow f with pendingReq := none } := by
    unfold State.clearPending
    rw [State.flow_mapFlow, if_pos rfl]
  rw [setRegion_mapFlow (b := b) (by rw [cleared]; exact binding), cleared]
  exact setFlow_setFlow s f _ _

theorem clearPending_idle (s : State) (f : FlowId) : (s.clearPending f).setFlowState f .idle =
    s.setFlow f { s.flow f with pendingReq := none, state := .idle } :=
  mapFlow_mapFlow s f _ _

end

/-- Settles O28, by the kind of the pending request. -/
theorem pendingDeadlineExpires : Obligations.PendingDeadlineExpires := by
  unfold Obligations.PendingDeadlineExpires
  intro s t f b running binding
  rw [exec_pendingDeadlineExpiry s t running f]
  refine ⟨fun k d pending due => ?due, fun early => ?early⟩
  case due =>
    rw [pendingExpiry_due (s := s.advance t) pending due]
    cases k with
    | erase r =>
      exact congrArg Host.Outcome.next
        (clearPending_setRegion (s := s.advance t) binding r .blank fun c => { c with state := .idle })
    | open_ o => exact congrArg Host.Outcome.next (clearPending_idle (s.advance t) f)
    | block seq n again => rfl
    | close r =>
      exact congrArg Host.Outcome.next (clearPending_setRegion (s := s.advance t) binding r .short
        fun c => { c with openRegion := none, state := .idle })
    | abandon r =>
      exact congrArg Host.Outcome.next
        (clearPending_setRegion (s := s.advance t) binding r .short fun c => { c with state := .idle })
    | activate => rfl
  case early => rw [pendingExpiry_early (s := s.advance t) early]

/-! ## The gap deadline (R88, R89) -/

section
variable {s : State} {f : FlowId}

theorem gapDue_of_inspected {p : Inspected} {d : Time} (record : (s.flow f).record = some (.inspected p))
    (deadline : p.gapDeadline = some d) : s.gapDue f = decide (d ≤ s.now) := by
  unfold State.gapDue
  rw [record]
  dsimp only
  rw [deadline]
  rfl

theorem gapExpiry_due {n : TargetId} (due : s.gapDue f = true) (target : (s.flow f).target = some n) :
    s.gapExpiry f = s.endBroken f n (s.flow f).held.isSome := by
  unfold State.gapExpiry
  rw [if_pos due, target]
  rfl

theorem gapDue_early (early : ∀ p d, (s.flow f).record = some (.inspected p) → p.gapDeadline = some d → s.now < d) :
    s.gapDue f = false := by
  unfold State.gapDue
  split
  · next p record =>
    cases deadline : p.gapDeadline with
    | none => rfl
    | some d => exact decide_eq_false (not_le.mpr (early p d record deadline))
  · rfl

end

/-- Settles O29, by the deadline of the record. -/
theorem gapDeadlineExpires : Obligations.GapDeadlineExpires := by
  unfold Obligations.GapDeadlineExpires
  refine ⟨fun s f n final => rfl, fun s t f running => ⟨fun n p d target record deadline due => ?due, fun early => ?early⟩⟩
  case due =>
    have now : (s.advance t).gapDue f = true :=
      (gapDue_of_inspected (s := s.advance t) record deadline).trans (decide_eq_true due)
    rw [exec_gapDeadlineExpiry s t running f, gapExpiry_due now target]
    rfl
  case early =>
    rw [exec_gapDeadlineExpiry s t running f, State.gapExpiry, gapDue_early (s := s.advance t) early]
    exact congrArg Host.Outcome.next (State.trunkTakes_nil _ running.offered)

end Sys2Proof.Proofs
end

section
/-! The window expires and closes (C6): O30 (R63, R64, R69, R118 to R124). -/

namespace Sys2Proof.Proofs
open Sys2Proof.Machine

/-! ## What the closing of the window leaves as it was -/

/-- The parts of a state that no closing of the window touches. -/
structure Aside where
  ports : Ports
  images : Vector ImageRecord 16
  routes : Vector RouteEntry 96
  faults : FaultFlags
  mode : PartMode
  checkList : CheckMem
  extents : List ExtentEntry
  mgmt : Responder
  now : Time

/-- Those parts of a state. -/
def aside (s : State) : Aside :=
  ⟨s.ports, s.images, s.routes, s.faults, s.mode, s.checkList, s.extents, s.mgmt, s.now⟩

section
variable (s : State)

theorem flowAlert_aside (f : FlowId) (before : HoldCauses) : aside (s.flowAlert f before) = aside s := by
  unfold State.flowAlert
  split <;> rfl

theorem failFlow_aside (f : FlowId) (k : Condition) : aside (s.failFlow f k) = aside s := by
  unfold State.failFlow
  dsimp only
  split
  · rw [flowAlert_aside, State.mapFlow, clearedWork_setFlow]
    rfl
  · rfl

theorem clearRecordOf_aside (f : FlowId) : aside (s.clearRecordOf f) = aside s := by
  unfold State.clearRecordOf
  split <;> rfl

theorem clearTrackerOf_aside (f : FlowId) : aside (s.clearTrackerOf f) = aside s := by
  unfold State.clearTrackerOf
  split
  · rfl
  · split <;> rfl

/-! ## Every flow fails (R120, R121) -/

/-- Every flow of a list fails for one cause (R121). -/
def failAll (k : Condition) (l : List FlowId) : State := l.foldl (fun u f => u.failFlow f k) s

/-- A flow's context in FAILED (R63). -/
def failedContext (k : Condition) (c : FlowCtx) : FlowCtx := ({ c with fifo := [], held := none } : FlowCtx).failed k

theorem failedContext_atWork (k : Condition) (c : FlowCtx) : (failedContext k c).state.atWork = false := rfl

theorem failFlow_flow (f g : FlowId) (k : Condition) : (s.failFlow f k).flow g =
    if g = f ∧ (s.flow g).state.atWork = true then failedContext k (s.flow g) else s.flow g := by
  by_cases same : g = f
  · subst same
    by_cases working : (s.flow g).state.atWork = true
    · unfold State.failFlow
      dsimp only
      rw [if_pos working, flow_of_work (flowAlert_work _ g _), State.flow_mapFlow, if_pos rfl, clearedWork_flow,
        if_pos ⟨rfl, working⟩]
      rfl
    · rw [failFlow_of_not_atWork s g k (Bool.eq_false_of_not_eq_true working), if_neg fun both => working both.2]
  · rw [if_neg fun both => same both.1]
    unfold State.failFlow
    dsimp only
    split
    · rw [flow_of_work (flowAlert_work _ f _), State.flow_mapFlow, if_neg same, State.withdrawGate_flow,
        State.abandonFlowSlice_flow, State.freeFlowCells_flow, if_neg same]
    · rfl

theorem failAll_flow (k : Condition) (l : List FlowId) (g : FlowId) : (failAll s k l).flow g =
    if g ∈ l ∧ (s.flow g).state.atWork = true then failedContext k (s.flow g) else s.flow g := by
  induction l generalizing s with
  | nil => exact (if_neg fun both => List.not_mem_nil both.1).symm
  | cons f rest ih =>
    show (failAll (s.failFlow f k) k rest).flow g = _
    rw [ih, failFlow_flow]
    by_cases here : g = f ∧ (s.flow g).state.atWork = true
    · rw [if_pos here, failedContext_atWork, if_neg fun both => Bool.false_ne_true both.2,
        if_pos ⟨List.mem_cons.mpr (Or.inl here.1), here.2⟩]
    · rw [if_neg here]
      refine if_congr ?_ rfl rfl
      constructor
      · exact fun both => ⟨List.mem_cons_of_mem f both.1, both.2⟩
      · rintro ⟨mem, working⟩
        exact ⟨(List.mem_cons.mp mem).resolve_left fun same => here ⟨same, working⟩, working⟩

/-- The cells in use after one flow failed (R101). -/
theorem failFlow_inUse (f : FlowId) (k : Condition) (c : CellId) : ((s.failFlow f k).cell c).inUse = true ↔
    (s.cell c).inUse = true ∧ ¬ ((s.flow f).state.atWork = true ∧ c ∈ (s.flow f).heldCells) := by
  unfold State.failFlow
  dsimp only
  split
  · next working =>
    rw [cell_of_work (flowAlert_work _ f _), State.mapFlow_cell, State.withdrawGate_cell, State.abandonFlowSlice_cell,
      State.freeFlowCells_cell]
    split
    · next mem => exact iff_of_false Bool.false_ne_true fun both => both.2 ⟨working, mem⟩
    · next mem => exact (and_iff_left fun both => mem both.2).symm
  · next idle => exact (and_iff_left fun both => idle both.1).symm

theorem failAll_inUse (k : Condition) (l : List FlowId) (c : CellId) : ((failAll s k l).cell c).inUse = true ↔
    (s.cell c).inUse = true ∧ ∀ f ∈ l, ¬ ((s.flow f).state.atWork = true ∧ c ∈ (s.flow f).heldCells) := by
  induction l generalizing s with
  | nil => exact (and_iff_left fun f mem => (List.not_mem_nil mem).elim).symm
  | cons f rest ih =>
    show ((failAll (s.failFlow f k) k rest).cell c).inUse = true ↔ _
    rw [ih, failFlow_inUse, and_assoc, List.forall_mem_cons]
    refine and_congr Iff.rfl (and_congr_right fun apart => forall₂_congr fun g mem => ?_)
    rw [failFlow_flow]
    split
    · next here =>
      obtain ⟨rfl, -⟩ := here
      exact iff_of_true (fun both => Bool.false_ne_true both.1) apart
    · rfl

/-- The report of a flow that failed waits in the alert queue (R67). -/
def FailureReported (s : State) (k : Condition) (f : FlowId) : Prop :=
  ∃ report, Alert.flow f report ∈ s.alerts.entries ∧ report.state = .failed ∧ report.condition = some k

theorem mem_putAlert (a : Alert) (l : List Alert) : a ∈ putAlert a l := by
  induction l with
  | nil => exact List.mem_cons_self
  | cons x rest ih =>
    rw [putAlert]
    split
    · exact List.mem_cons_self
    · exact List.mem_cons_of_mem x ih

theorem mem_putAlert_of_mem {a x : Alert} {l : List Alert} (mem : x ∈ l) (other : x.key ≠ a.key) : x ∈ putAlert a l := by
  induction l with
  | nil => exact (List.not_mem_nil mem).elim
  | cons y rest ih =>
    rw [putAlert]
    obtain rfl | later := List.mem_cons.mp mem
    · rw [if_neg other]
      exact List.mem_cons_self
    · split
      · exact List.mem_cons_of_mem a later
      · exact List.mem_cons_of_mem y (ih later)

theorem failFlow_alerts {f : FlowId} {k : Condition} {b : Binding} (working : (s.flow f).state.atWork = true)
    (binding : (s.flow f).binding = some b) : (s.failFlow f k).alerts.entries =
      putAlert (.flow f ((failedContext k (s.flow f)).report b (s.flow f).holds)) s.alerts.entries := by
  rw [failFlow_of_atWork k working binding, clearedWork_setFlow]
  rfl

theorem failFlow_alerts_or (f : FlowId) (k : Condition) : (s.failFlow f k).alerts.entries = s.alerts.entries
    ∨ ∃ report, (s.failFlow f k).alerts.entries = putAlert (.flow f report) s.alerts.entries := by
  by_cases working : (s.flow f).state.atWork = true
  · cases binding : (s.flow f).binding with
    | some b => exact Or.inr ⟨_, failFlow_alerts s working binding⟩
    | none =>
      left
      have unbound : ((((s.freeFlowCells f).abandonFlowSlice f).withdrawGate f).mapFlow f (·.failed k)).flowAlert f
          (s.flow f).holds = (((s.freeFlowCells f).abandonFlowSlice f).withdrawGate f).mapFlow f (·.failed k) := by
        have same : ((((s.freeFlowCells f).abandonFlowSlice f).withdrawGate f).mapFlow f (·.failed k)).flow f =
            failedContext k (s.flow f) := by
          rw [State.flow_mapFlow, if_pos rfl, clearedWork_flow]
          rfl
        unfold State.flowAlert
        rw [same, show (failedContext k (s.flow f)).binding = none from binding]
      unfold State.failFlow
      dsimp only
      rw [if_pos working, unbound, State.mapFlow, clearedWork_setFlow]
  · rw [failFlow_of_not_atWork s f k (Bool.eq_false_of_not_eq_true working)]
    exact Or.inl rfl

/-- Another flow's failure leaves a waiting report. -/
theorem failureReported_failFlow {f g : FlowId} (k : Condition) (other : f ≠ g) (reported : FailureReported s k f) :
    FailureReported (s.failFlow g k) k f := by
  obtain ⟨report, mem, state, condition⟩ := reported
  refine ⟨report, ?_, state, condition⟩
  obtain same | ⟨newer, put⟩ := failFlow_alerts_or s g k
  · rw [same]
    exact mem
  · rw [put]
    exact mem_putAlert_of_mem mem fun key => other (AlertKey.flow.inj key)

theorem failureReported_failAll {f : FlowId} (k : Condition) (l : List FlowId)
    (idle : (s.flow f).state.atWork = false) (reported : FailureReported s k f) :
    FailureReported (failAll s k l) k f := by
  induction l generalizing s with
  | nil => exact reported
  | cons g rest ih =>
    by_cases same : f = g
    · have unchanged : s.failFlow g k = s := failFlow_of_not_atWork s g k (same ▸ idle)
      show FailureReported (failAll (s.failFlow g k) k rest) k f
      rw [unchanged]
      exact ih s idle reported
    · refine ih (s.failFlow g k) ?_ (failureReported_failFlow s k same reported)
      rw [failFlow_flow, if_neg fun both => same both.1]
      exact idle

theorem failAll_reports {f : FlowId} {b : Binding} (k : Condition) (l : List FlowId) (mem : f ∈ l)
    (working : (s.flow f).state.atWork = true) (binding : (s.flow f).binding = some b) :
    FailureReported (failAll s k l) k f := by
  induction l generalizing s with
  | nil => exact (List.not_mem_nil mem).elim
  | cons g rest ih =>
    show FailureReported (failAll (s.failFlow g k) k rest) k f
    by_cases same : f = g
    · subst same
      refine failureReported_failAll (s.failFlow f k) k rest ?_
        ⟨(failedContext k (s.flow f)).report b (s.flow f).holds, ?_, rfl, rfl⟩
      · rw [failFlow_flow, if_pos ⟨rfl, working⟩]
        rfl
      · rw [failFlow_alerts s working binding]
        exact mem_putAlert _ _
    · have unchanged : (s.failFlow g k).flow f = s.flow f := by rw [failFlow_flow, if_neg fun both => same both.1]
      refine ih (s.failFlow g k) ((List.mem_cons.mp mem).resolve_left same) ?_ ?_
      · rw [unchanged]
        exact working
      · rw [unchanged]
        exact binding

/-! ## Records and trackers (R69) -/

theorem clearRecordOf_flow (f g : FlowId) : (s.clearRecordOf f).flow g =
    if g = f ∧ ((s.flow g).state = .done ∨ (s.flow g).state = .failed) then { s.flow g with record := none }
    else s.flow g := by
  unfold State.clearRecordOf
  by_cases same : g = f
  · subst same
    split
    · next ended => rw [State.flow_setRecord, if_pos rfl, if_pos ⟨rfl, ended⟩]
    · next working => exact (if_neg fun both => working both.2).symm
  · refine Eq.trans ?_ (if_neg fun both => same both.1).symm
    split
    · rw [State.flow_setRecord, if_neg same]
    · rfl

theorem clearRecords_flow (l : List FlowId) (g : FlowId) : (l.foldl State.clearRecordOf s).flow g =
    if g ∈ l ∧ ((s.flow g).state = .done ∨ (s.flow g).state = .failed) then { s.flow g with record := none }
    else s.flow g := by
  induction l generalizing s with
  | nil => exact (if_neg fun both => List.not_mem_nil both.1).symm
  | cons f rest ih =>
    rw [List.foldl_cons, ih, clearRecordOf_flow]
    by_cases here : g = f ∧ ((s.flow g).state = .done ∨ (s.flow g).state = .failed)
    · rw [if_pos here]
      refine Eq.trans ?_ (if_pos ⟨List.mem_cons.mpr (Or.inl here.1), here.2⟩).symm
      split <;> rfl
    · rw [if_neg here]
      refine if_congr ?_ rfl rfl
      constructor
      · exact fun both => ⟨List.mem_cons_of_mem f both.1, both.2⟩
      · rintro ⟨mem, ended⟩
        exact ⟨(List.mem_cons.mp mem).resolve_left fun same => here ⟨same, ended⟩, ended⟩

theorem clearTrackerOf_flow (f g : FlowId) : (s.clearTrackerOf f).flow g = s.flow g := by
  unfold State.clearTrackerOf
  split
  · rfl
  · split <;> rfl

theorem clearTrackerOf_tracker (f : FlowId) (n : TargetId) : ((s.clearTrackerOf f).target n).tracker =
    if (s.flow f).state ≠ .free ∧ (s.flow f).target = some n then .none else (s.target n).tracker := by
  unfold State.clearTrackerOf
  split
  · next free => exact (if_neg fun both => both.1 free).symm
  · next bound =>
    split
    · next m target =>
      rw [State.target_setTracker]
      by_cases same : n = m
      · subst same
        rw [if_pos rfl]
        exact (if_pos ⟨bound, target⟩).symm
      · rw [if_neg same]
        exact (if_neg fun both => same (Option.some.inj (both.2.symm.trans target))).symm
    · next target => exact (if_neg fun both => by rw [target] at both; cases both.2).symm

theorem clearTrackers_tracker (l : List FlowId) (n : TargetId) : ((l.foldl State.clearTrackerOf s).target n).tracker =
    if ∃ f ∈ l, (s.flow f).state ≠ .free ∧ (s.flow f).target = some n then .none else (s.target n).tracker := by
  induction l generalizing s with
  | nil => exact (if_neg fun ⟨f, mem, _⟩ => List.not_mem_nil mem).symm
  | cons f rest ih =>
    rw [List.foldl_cons, ih, clearTrackerOf_tracker]
    simp only [clearTrackerOf_flow, List.exists_mem_cons_iff]
    by_cases later : ∃ g ∈ rest, (s.flow g).state ≠ .free ∧ (s.flow g).target = some n
    · rw [if_pos later, if_pos (Or.inr later)]
    · rw [if_neg later]
      exact if_congr (or_iff_left later).symm rfl rfl

end

/-! ## The window closes (R120, R124) -/

section
variable (s : State) (cause : ClosureCause)

/-- The state in which all flows have failed and records and trackers are clear. -/
def flowsClosed (s : State) (k : Condition) : State :=
  (allFlows.foldl State.clearRecordOf (failAll s k allFlows)).clearTrackers

theorem closeWindow_eq : s.closeWindow cause =
    ({ flowsClosed s cause.condition with window := Window.reset }).queueAlert (.window cause s.flowsAtWork) := rfl

/-- Clearing records and trackers leaves the alerts, the cells, the engine and the supply. -/
theorem flowsClosed_view (k : Condition) : (flowsClosed s k).alerts = (failAll s k allFlows).alerts
    ∧ (flowsClosed s k).cells = (failAll s k allFlows).cells ∧ (flowsClosed s k).engine = (failAll s k allFlows).engine
    ∧ (flowsClosed s k).supply = (failAll s k allFlows).supply := by
  have records := foldl_view (fun u : State => (u.alerts, u.cells, u.engine, u.supply)) State.clearRecordOf
    (fun u f => by unfold State.clearRecordOf; split <;> rfl) allFlows (failAll s k allFlows)
  have trackers := foldl_view (fun u : State => (u.alerts, u.cells, u.engine, u.supply)) State.clearTrackerOf
    (fun u f => by
      unfold State.clearTrackerOf
      split
      · rfl
      · split <;> rfl) allFlows (allFlows.foldl State.clearRecordOf (failAll s k allFlows))
  have both := trackers.trans records
  injection both with alerts rest
  injection rest with cells rest
  injection rest with engine supply
  exact ⟨alerts, cells, engine, supply⟩

theorem failAll_aside (k : Condition) (l : List FlowId) : aside (failAll s k l) = aside s :=
  foldl_view aside (fun u f => u.failFlow f k) (fun u f => failFlow_aside u f k) l s

theorem flowsClosed_aside (k : Condition) : aside (flowsClosed s k) = aside s := by
  unfold flowsClosed State.clearTrackers
  rw [foldl_view aside State.clearTrackerOf clearTrackerOf_aside, foldl_view aside State.clearRecordOf clearRecordOf_aside,
    failAll_aside]

theorem flowsClosed_flow (k : Condition) (g : FlowId) : (flowsClosed s k).flow g =
    if (s.flow g).state.atWork = true then failedContext k (s.flow g)
    else if (s.flow g).state = .done ∨ (s.flow g).state = .failed then { s.flow g with record := none }
    else s.flow g := by
  unfold flowsClosed
  rw [flow_of_work (clearTrackers_work _), clearRecords_flow, failAll_flow]
  simp only [mem_allFlows, true_and]
  by_cases working : (s.flow g).state.atWork = true
  · rw [if_pos working, if_pos working]
    exact if_pos (Or.inr rfl)
  · rw [if_neg working, if_neg working]

theorem flowsClosed_bound (k : Condition) (g : FlowId) (n : TargetId) :
    ((allFlows.foldl State.clearRecordOf (failAll s k allFlows)).flow g).state ≠ .free
      ∧ ((allFlows.foldl State.clearRecordOf (failAll s k allFlows)).flow g).target = some n ↔
    (s.flow g).state ≠ .free ∧ (s.flow g).target = some n := by
  have flow := flowsClosed_flow s k g
  unfold flowsClosed at flow
  rw [flow_of_work (clearTrackers_work _)] at flow
  rw [flow]
  split
  · next working =>
    have bound : (s.flow g).state ≠ .free := by
      intro free
      rw [free] at working
      exact Bool.false_ne_true working
    exact and_congr (iff_of_true (by decide : FlowState.failed ≠ .free) bound) Iff.rfl
  · split <;> exact Iff.rfl

theorem flowsClosed_tracker (k : Condition) (n : TargetId) : ((flowsClosed s k).target n).tracker =
    if ∃ f, (s.flow f).state ≠ .free ∧ (s.flow f).target = some n then .none else (s.target n).tracker := by
  have targets : (allFlows.foldl State.clearRecordOf (failAll s k allFlows)).targets = s.targets :=
    (foldl_view State.targets State.clearRecordOf
      (fun u f => by unfold State.clearRecordOf; split <;> rfl) allFlows _).trans
      (foldl_view State.targets (fun u f => u.failFlow f k) (fun u f => by
        unfold State.failFlow State.flowAlert
        dsimp only
        split
        · rw [State.mapFlow, clearedWork_setFlow]
          split <;> rfl
        · rfl) allFlows s)
  unfold flowsClosed State.clearTrackers
  rw [clearTrackers_tracker]
  simp only [flowsClosed_bound, mem_allFlows, true_and]
  rw [State.target_eq, targets]
  rfl

end

section
variable {s : State}

theorem windowDue_iff : s.windowDue = true ↔ s.window.state = .opened ∧ ∃ e, s.window.expiry = some e ∧ e ≤ s.now := by
  unfold State.windowDue
  rw [Bool.and_eq_true, beq_iff_eq, Option.any_eq_true]
  simp only [decide_eq_true_eq]

end

/-- Settles O30, by the folds over the flows that closing the window is. -/
theorem windowExpiresAndCloses : Obligations.WindowExpiresAndCloses := by
  unfold Obligations.WindowExpiresAndCloses
  refine ⟨fun s t e running opened expiry due => ?due, fun s t running early => ?early, fun s cause => ?closes⟩
  case due =>
    rw [exec_windowExpiry s t running]
    exact congrArg Host.Outcome.next (if_pos ((windowDue_iff (s := s.advance t)).mpr ⟨opened, e, expiry, due⟩))
  case early =>
    rw [exec_windowExpiry s t running]
    refine congrArg Host.Outcome.next (if_neg fun due => ?_)
    obtain ⟨opened, e, expiry, passed⟩ := (windowDue_iff (s := s.advance t)).mp due
    obtain closed | early := early
    · rw [show s.window.state = .opened from opened] at closed
      cases closed
    · exact absurd passed (not_le.mpr (early e expiry))
  case closes =>
    have condition : (if cause = .lapsed then Condition.windowLapsed else .windowClosed) = cause.condition := by
      cases cause <;> rfl
    obtain ⟨alerts, cells, engine, supply⟩ := flowsClosed_view s cause.condition
    have untouched := flowsClosed_aside s cause.condition
    have flow := flowsClosed_flow s cause.condition
    have tracker := flowsClosed_tracker s cause.condition
    have inUse := failAll_inUse s cause.condition allFlows
    have reports (f : FlowId) (b : Binding) := failAll_reports s (f := f) (b := b) cause.condition allFlows (mem_allFlows f)
    have all : allFlows.foldl (fun u f => State.failFlow u f cause.condition) s = failAll s cause.condition allFlows := rfl
    dsimp only
    rw [condition, ← allFlows_eq, all, closeWindow_eq]
    clear all condition
    -- The two folds are named, so that no later step unfolds them.
    generalize failAll s cause.condition allFlows = w at *
    generalize flowsClosed s cause.condition = v at *
    refine ⟨⟨?alerts, cells, engine, supply⟩, fun f working => ?working, fun f ended => ?ended, fun f free => ?free,
      tracker, rfl, mem_putAlert _ _, fun f b working binding => ?reported, fun c => ?cells, ?rest⟩
    case alerts =>
      exact congrArg (fun l : AlertQueue => { l with entries := putAlert (.window cause s.flowsAtWork) l.entries }) alerts
    case working =>
      refine (flow f).trans ((if_pos working).trans ?_)
      have lapsed : (cause.condition == .windowLapsed || cause.condition == .windowClosed) = true := by
        cases cause <;> rfl
      unfold failedContext FlowCtx.failed
      rw [lapsed, Bool.and_true]
      rfl
    case ended =>
      have idle : ¬ (s.flow f).state.atWork = true := by
        obtain done | failed := ended
        · rw [done]
          decide
        · rw [failed]
          decide
      exact (flow f).trans ((if_neg idle).trans (if_pos ended))
    case free =>
      have idle : ¬ (s.flow f).state.atWork = true := by
        rw [free]
        decide
      have notEnded : ¬ ((s.flow f).state = .done ∨ (s.flow f).state = .failed) := by
        rw [free]
        decide
      exact (flow f).trans ((if_neg idle).trans (if_neg notEnded))
    case reported =>
      obtain ⟨report, mem, state, failed⟩ := reports f b working binding
      exact ⟨report, mem_putAlert_of_mem (alerts ▸ mem) (fun key => AlertKey.noConfusion key), state, failed⟩
    case cells =>
      have same : v.cell c = w.cell c := congrArg (fun l => Vector.get l c) cells
      rw [Bool.eq_iff_iff]
      show (v.cell c).inUse = true ↔ _
      rw [same, inUse c]
      simp only [mem_allFlows, forall_true_left, Bool.and_eq_true, Bool.not_eq_true', Bool.eq_false_iff, ne_eq,
        List.any_eq_true, List.contains_iff_mem, true_and, not_exists]
    case rest =>
      injection untouched with ports images routes faults mode checkList extents mgmt now
      exact ⟨ports, images, routes, faults, mode, checkList, extents, mgmt, now⟩

end Sys2Proof.Proofs
end

section
/-! The check engine (C5): O32, O33, O34 and O35 (R26, R32, R33, R86, R98, R104 to R113). -/

namespace Sys2Proof.Proofs
open Sys2Proof.Machine

/-! ## The engine's choice (R105, R107) -/

section
variable (s : State)

/-- The level a requester asks at (R107). -/
def levelOf (s : State) : Requester → Nat
  | .flow f => (s.flow f).params.level
  | .image i => (s.image i).level.getD 0

/-- The place of a requester among those of its level: flows before images, each by number (R107). -/
def placeOf : Requester → Nat
  | .flow f => f.val
  | .image i => 16 + i.val

theorem rank_eq (r : Requester) : s.rank r = levelOf s r * 32 + placeOf r := by
  cases r with
  | flow f => rfl
  | image i => exact Nat.add_assoc _ _ _

theorem placeOf_lt (r : Requester) : placeOf r < 32 := by
  cases r with
  | flow f => exact f.isLt.trans (by decide)
  | image i => exact Nat.add_lt_add_left i.isLt 16

theorem wakeEngine_busy {x : Slice} (r : Requester) (busy : s.engine = some x) : s.wakeEngine r = s := by
  unfold State.wakeEngine
  rw [busy]

theorem wakeEngine_idle (r : Requester) (idle : s.engine = none) : s.wakeEngine r = s.beginSlice r := by
  unfold State.wakeEngine
  rw [idle]

theorem beginSlice_flow {f : FlowId} {c : CellId} {rest : List CellId} (fifo : (s.flow f).fifo = c :: rest) :
    s.beginSlice (.flow f) = { s with engine := some ⟨.flow f c (s.cell c), false⟩ } := by
  show s.beginFlowSlice f = _
  unfold State.beginFlowSlice
  rw [fifo]

end

/-- Settles O32, by the least rank, whose parts are the level and the place among its level. -/
theorem engineChoosesByLevel : Obligations.EngineChoosesByLevel := by
  unfold Obligations.EngineChoosesByLevel
  intro s present level
  have asks (r : Requester) : r ∈ s.requesters ↔ present r := by
    cases r with
    | flow f => exact mem_requesters_flow s f
    | image i => exact mem_requesters_image s i
  have levels (r : Requester) : level r = levelOf s r := by cases r <;> rfl
  refine ⟨fun r chosen => ?least, ?none, fun none => ?rests, fun r chosen => ?next, fun r x => wakeEngine_busy s r,
    fun r => wakeEngine_idle s r, fun f c rest => beginSlice_flow s⟩
  case least =>
    obtain ⟨mem, least⟩ := leastBy_some chosen
    refine ⟨(asks r).mp mem, fun q asking => ?_⟩
    have order := least q ((asks q).mpr asking)
    have placeR := placeOf_lt r
    have placeQ := placeOf_lt q
    rw [rank_eq, rank_eq] at order
    rw [levels, levels]
    refine ⟨by omega, fun same => ?_⟩
    have places : placeOf r ≤ placeOf q := by omega
    constructor
    · rintro i rfl
      refine ⟨?_, ?_⟩
      · rintro f rfl
        have below := f.isLt
        simp only [placeOf] at places
        omega
      · rintro j rfl
        simp only [placeOf] at places
        exact Fin.le_def.mpr (by omega)
    · rintro f rfl g rfl
      exact Fin.le_def.mpr places
  case none =>
    refine (leastBy_eq_none_iff s.rank s.requesters).trans (List.eq_nil_iff_forall_not_mem.trans ?_)
    exact forall_congr' fun r => not_congr (asks r)
  case rests =>
    unfold State.nextSlice
    rw [none]
  case next =>
    unfold State.nextSlice
    rw [chosen]

/-! ## A flow's slice ends (R108, R109, R113) -/

section
variable {s : State} {f : FlowId} {c : CellId} {x : Cell} {n : TargetId} {p : Inspected}

theorem flowSliceComplete_flow {abandoned : Bool} (engine : s.engine = some ⟨.flow f c x, abandoned⟩) :
    s.flowSliceComplete = (if abandoned then s else s.flowSliceResult f c x).nextSlice := by
  unfold State.flowSliceComplete
  rw [engine]

theorem flowSliceComplete_image {i : ImageId} {b : List Byte} {m : Nat} {e : Option FaultFlag} {a : Bool}
    (engine : s.engine = some ⟨.image i b m e, a⟩) : s.flowSliceComplete = s := by
  unfold State.flowSliceComplete
  rw [engine]

theorem flowSliceComplete_none (engine : s.engine = none) : s.flowSliceComplete = s := by
  unfold State.flowSliceComplete
  rw [engine]

theorem imageSliceComplete_image {i : ImageId} {b : List Byte} {m : Nat} {e : Option FaultFlag} {abandoned : Bool}
    (engine : s.engine = some ⟨.image i b m e, abandoned⟩) :
    s.imageSliceComplete = (if abandoned then s else s.imageSliceResult i b m e).nextSlice := by
  unfold State.imageSliceComplete
  rw [engine]

theorem imageSliceComplete_flow {a : Bool} (engine : s.engine = some ⟨.flow f c x, a⟩) : s.imageSliceComplete = s := by
  unfold State.imageSliceComplete
  rw [engine]

theorem imageSliceComplete_none (engine : s.engine = none) : s.imageSliceComplete = s := by
  unfold State.imageSliceComplete
  rw [engine]

variable (target : (s.flow f).target = some n) (record : (s.flow f).record = some (.inspected p))
include target record

theorem flowSliceResult_damaged (bad : x.parityBad = true) :
    s.flowSliceResult f c x = (s.raiseFault .cell).endBroken f n (s.flow f).held.isSome := by
  unfold State.flowSliceResult
  rw [target, record]
  exact if_pos bad

/-- A sound slice's bytes are folded, and its cell is free unless it holds the final frame (R108). -/
theorem flowSliceResult_sound (good : x.parityBad = false) : s.flowSliceResult f c x =
    let v := s.setFlow f { s.flow f with acc := crcFold (s.flow f).acc x.content.folded, fifo := (s.flow f).fifo.tail }
    if (s.flow f).held = some c then v.compare f n p x.content else v.freeCell c := by
  unfold State.flowSliceResult
  rw [target, record]
  dsimp only
  rw [if_neg (by rw [good]; exact Bool.false_ne_true), State.flow_mapFlow, if_pos rfl]
  rfl

end

theorem folded_none {x : CellContent} (h : x.span = none) : x.folded = [] := by
  unfold CellContent.folded
  rw [h]

theorem folded_some {x : CellContent} {d : FoldSpan} (h : x.span = some d) :
    x.folded = (x.bytes.drop d.first).take d.count := by
  unfold CellContent.folded
  rw [h]
  rfl

/-- Settles O33, by the work the engine holds and the record it belongs to. -/
theorem flowSliceFoldsOrIsDiscarded : Obligations.FlowSliceFoldsOrIsDiscarded := by
  unfold Obligations.FlowSliceFoldsOrIsDiscarded
  refine ⟨fun s t f n p c x running engine target record => ⟨fun good notHeld => ?folds, fun bad => ?damaged⟩,
    fun x => ⟨folded_none, fun d => folded_some⟩,
    fun s t running => ⟨fun f c x engine => ?abandonedFlow, fun i b n e engine => ?abandonedImage, fun f c x a engine => ?flow,
      fun i b n e a engine => ?image, fun engine => ⟨?noFlow, ?noImage⟩⟩⟩
  case folds =>
    rw [exec_flowSliceComplete s t running, flowSliceComplete_flow (s := s.advance t) engine,
      flowSliceResult_sound (s := s.advance t) target record good, if_neg Bool.false_ne_true]
    dsimp only
    rw [State.advance_flow, if_neg notHeld]
    exact congrArg Host.Outcome.next (State.trunkTakes_nil _ ((State.nextSlice_offers _).trans running.offered))
  case damaged =>
    rw [exec_flowSliceComplete s t running, flowSliceComplete_flow (s := s.advance t) engine,
      flowSliceResult_damaged (s := s.advance t) target record bad]
    rfl
  case abandonedFlow =>
    rw [exec_flowSliceComplete s t running, flowSliceComplete_flow (s := s.advance t) engine]
    exact congrArg Host.Outcome.next (State.trunkTakes_nil _ ((State.nextSlice_offers _).trans running.offered))
  case abandonedImage =>
    rw [exec_imageSliceComplete s t running, imageSliceComplete_image (s := s.advance t) engine]
    rfl
  case flow => rw [exec_imageSliceComplete s t running, imageSliceComplete_flow (s := s.advance t) engine]
  case image =>
    rw [exec_flowSliceComplete s t running, flowSliceComplete_image (s := s.advance t) engine]
    exact congrArg Host.Outcome.next (State.trunkTakes_nil _ running.offered)
  case noFlow =>
    rw [exec_flowSliceComplete s t running, flowSliceComplete_none (s := s.advance t) engine]
    exact congrArg Host.Outcome.next (State.trunkTakes_nil _ running.offered)
  case noImage => rw [exec_imageSliceComplete s t running, imageSliceComplete_none (s := s.advance t) engine]

/-! ## The verdict of the last slice (R109 to R111) -/

section
variable {v : State} {f : FlowId} {n : TargetId} {p : Inspected} {x : CellContent}

theorem locateBad_iff (r : ImageRecord) (region : Nat) : r.locateBad region = true ↔
    ImageField.extent ∈ r.bad ∨ ∃ k : SlotId, k.val < region ∧ (r.slots.get k).parityBad = true := by
  unfold ImageRecord.locateBad
  rw [Bool.or_eq_true, List.contains_iff_mem, takeSlots_any_parityBad]

/-- The entry of the check list that a block is compared with (R26, R109). -/
def blockEntry (v : State) (f : FlowId) (p : Inspected) : CheckEntry :=
  v.checkList.read ((v.imageOf f).checkEntryIndex (v.flow f).openNumber p.checkIndex)

theorem compare_unlocated (bad : (v.imageOf f).locateBad (v.flow f).openNumber = true) :
    v.compare f n p x = v.tableFault f n .image .block := if_pos bad

variable (located : (v.imageOf f).locateBad (v.flow f).openNumber = false)
include located

theorem compare_located : v.compare f n p x =
    if (blockEntry v f p).parityBad then v.tableFault f n .checklist .block
    else if crcFinal (v.flow f).acc = (blockEntry v f p).value then v.releaseBlock f n p x else v.mismatch f n :=
  if_neg (Bool.eq_false_iff.mp located)

theorem compare_damagedEntry (bad : (blockEntry v f p).parityBad = true) :
    v.compare f n p x = v.tableFault f n .checklist .block :=
  (compare_located located).trans (if_pos bad)

variable (good : (blockEntry v f p).parityBad = false)
include good

theorem compare_matched (same : crcFinal (v.flow f).acc = (blockEntry v f p).value) :
    v.compare f n p x = v.releaseBlock f n p x :=
  (compare_located located).trans ((if_neg (Bool.eq_false_iff.mp good)).trans (if_pos same))

theorem compare_mismatch (other : crcFinal (v.flow f).acc ≠ (blockEntry v f p).value) :
    v.compare f n p x = v.mismatch f n :=
  (compare_located located).trans ((if_neg (Bool.eq_false_iff.mp good)).trans (if_neg other))

end

section
variable {v : State} {f : FlowId} {n : TargetId} {p : Inspected} {x : CellContent}

theorem releaseBlock_targetFault (bad : (v.target n).parityBad = true) :
    v.releaseBlock f n p x = v.tableFault f n .target .block := if_pos bad

theorem releaseBlock_full (sound : (v.target n).parityBad = false)
    (full : v.room (v.target n).segment.port .dialogue = false) : v.releaseBlock f n p x = v.endBroken f n true := by
  unfold State.releaseBlock
  rw [if_neg (by rw [sound]; exact Bool.false_ne_true)]
  exact if_neg (Bool.eq_false_iff.mp full)

theorem foldl_freeCell_setPort (u : State) (q : Port) (unit : PortUnit) (l : List CellId) :
    l.foldl State.freeCell (u.setPort q unit) = (l.foldl State.freeCell u).setPort q unit := by
  induction l generalizing u with
  | nil => rfl
  | cons c rest ih => exact ih (u.freeCell c)

theorem freeFlowCells_enqueued (u : State) (f : FlowId) (q : Port) (k : QueueClass) (frame : CanFrame) :
    (Enqueued u q k frame).freeFlowCells f = Enqueued (u.freeFlowCells f) q k frame := by
  have port : (u.freeFlowCells f).port q = u.port q := by
    rw [State.freeFlowCells_eq]
    rfl
  unfold Enqueued
  rw [port]
  show State.setFlow ((u.flow f).heldCells.foldl State.freeCell (u.setPort q _)) f _ = _
  rw [foldl_freeCell_setPort]
  rfl

theorem heldFrame_eq (x : CellContent) : v.heldFrame n x =
    ⟨(v.target n).request, true, x.frame.elim false HeldFrameInfo.brs, x.bytes⟩ := by
  unfold State.heldFrame
  cases x.frame <;> rfl

/-- A released block goes to the segment, and its answer is pending (R47, R90). -/
theorem releaseBlock_forwarded (sound : (v.target n).parityBad = false)
    (room : v.room (v.target n).segment.port .dialogue = true) : v.releaseBlock f n p x =
      (Enqueued (v.freeFlowCells f) (v.target n).segment.port .dialogue
          ⟨(v.target n).request, true, x.frame.elim false HeldFrameInfo.brs, x.bytes⟩).setFlow f
        { (v.freeFlowCells f).flow f with
          pendingReq := some ⟨.block p.seq p.dataLength p.isRepeat, v.now + ms (v.flow f).params.responseTime⟩
          state := .loading, lastVerdict := some .matched, record := none } := by
  have forwarded : v.releaseBlock f n p x = ((((v.toSegment n (v.heldFrame n x)).beginPending f
      (.block p.seq p.dataLength p.isRepeat)).freeFlowCells f).setVerdict f .matched).setRecord f none := by
    unfold State.releaseBlock
    rw [if_neg (by rw [sound]; exact Bool.false_ne_true)]
    exact if_pos room
  have freed : ((v.toSegment n (v.heldFrame n x)).beginPending f (.block p.seq p.dataLength p.isRepeat)).freeFlowCells f =
      ((v.toSegment n (v.heldFrame n x)).freeFlowCells f).setFlow f
        { v.flow f with
          pendingReq := some ⟨.block p.seq p.dataLength p.isRepeat, v.now + ms (v.flow f).params.responseTime⟩
          state := .loading, fifo := [], held := none } :=
    freeFlowCells_setFlow (v.toSegment n (v.heldFrame n x)) f rfl
  have moved : (v.toSegment n (v.heldFrame n x)).freeFlowCells f =
      Enqueued (v.freeFlowCells f) (v.target n).segment.port .dialogue (v.heldFrame n x) :=
    freeFlowCells_enqueued v f _ _ _
  rw [forwarded, freed, moved, heldFrame_eq, State.freeFlowCells_flow, if_pos rfl]
  unfold State.setVerdict State.setRecord State.mapFlow
  simp only [State.flow_setFlow, if_pos, setFlow_setFlow]

end

theorem imageOf_of_binding {u v : State} {f : FlowId} (images : u.images = v.images)
    (binding : (u.flow f).binding = (v.flow f).binding) : u.imageOf f = v.imageOf f := by
  unfold State.imageOf
  rw [binding]
  cases (v.flow f).binding with
  | none => rfl
  | some b => exact congrArg (fun l => Vector.get l b.image) images

theorem openNumber_elim (c : FlowCtx) : c.openNumber = c.openRegion.elim 0 OpenRegion.region := by
  unfold FlowCtx.openNumber
  cases c.openRegion <;> rfl

theorem checkEntryIndex_eq (r : ImageRecord) (region k : Nat) : r.checkEntryIndex region k =
    r.extent.elim 0 Extent.first + ((r.slots.toList.take region).map Slot.checkCount).sum + k := by
  unfold ImageRecord.checkEntryIndex checkOffset
  cases r.extent <;> rfl

/-- Settles O34, by the comparison of the folded bytes and the outcome it names. -/
theorem verdictOfTheLastSlice : Obligations.VerdictOfTheLastSlice := by
  unfold Obligations.VerdictOfTheLastSlice
  intro s t f n p c x running engine target record good held acc v r region checks entry segment frame w unlocated fault
  have flow : v.flow f = { s.flow f with acc := acc, fifo := (s.flow f).fifo.tail } := by
    show ((s.advance t).setFlow f _).flow f = _
    rw [State.flow_setFlow, if_pos rfl]
  have image : v.imageOf f = r := imageOf_of_binding (v := s) rfl (by rw [flow])
  have number : (v.flow f).openNumber = region := by
    rw [flow]
    exact openNumber_elim (s.flow f)
  have entryEq : blockEntry v f p = entry := by
    unfold blockEntry
    rw [image, number, checkEntryIndex_eq]
    rfl
  have params : (v.flow f).params = (s.flow f).params := params_of_binding (by rw [flow])
  have fold : crcFinal (v.flow f).acc = ~~~acc := by
    rw [flow]
    rfl
  have runs : exec (.flowSliceComplete t) s = .next ((v.compare f n p x.content).nextSlice).trunkTakes := by
    rw [exec_flowSliceComplete s t running, flowSliceComplete_flow (s := s.advance t) engine,
      flowSliceResult_sound (s := s.advance t) target record good, if_neg Bool.false_ne_true]
    dsimp only
    rw [State.advance_flow, if_pos held]
  have unlocatedIff : (v.imageOf f).locateBad (v.flow f).openNumber = true ↔ unlocated := by
    rw [image, number]
    exact locateBad_iff r region
  rw [runs]
  refine ⟨fun bad => ?unlocated, fun found bad => ?checklist, fun found sound same bad => ?target,
    fun found sound same targetSound room => ?forwarded, fun found sound same targetSound full => ?full,
    fun found sound other => ?mismatch⟩
  case unlocated => rw [compare_unlocated (unlocatedIff.mpr bad)]; rfl
  all_goals
    have located : (v.imageOf f).locateBad (v.flow f).openNumber = false :=
      Bool.eq_false_iff.mpr fun bad => found (unlocatedIff.mp bad)
  case checklist => rw [compare_damagedEntry located (by rw [entryEq]; exact bad)]; rfl
  case target =>
    rw [compare_matched located (by rw [entryEq]; exact sound) (by rw [fold, entryEq]; exact same),
      releaseBlock_targetFault (v := v) bad]
    rfl
  case forwarded =>
    rw [compare_matched located (by rw [entryEq]; exact sound) (by rw [fold, entryEq]; exact same),
      releaseBlock_forwarded (v := v) targetSound room, params]
    refine congrArg Host.Outcome.next (State.trunkTakes_nil _ ((State.nextSlice_offers _).trans ?_))
    exact (State.freeFlowCells_offers v f).trans running.offered
  case full =>
    rw [compare_matched located (by rw [entryEq]; exact sound) (by rw [fold, entryEq]; exact same),
      releaseBlock_full (v := v) targetSound full]
  case mismatch =>
    rw [compare_mismatch located (by rw [entryEq]; exact sound) (by rw [fold, entryEq]; exact other)]
    rfl

/-! ## The self-check of an image (R32, R33, R112) -/

section
variable (s : State) (i : ImageId)

theorem headerBad_iff (r : ImageRecord) : r.headerBad = true ↔ ImageField.tag ∈ r.bad ∨ ImageField.regionCount ∈ r.bad
    ∨ ∃ k : SlotId, k.val < r.regionCount.getD 0 ∧ (r.slots.get k).parityBad = true := by
  unfold ImageRecord.headerBad
  rw [Bool.or_eq_true, Bool.or_eq_true, List.contains_iff_mem, List.contains_iff_mem, or_assoc]
  exact or_congr Iff.rfl (or_congr Iff.rfl (takeSlots_any_parityBad r.slots _))

/-- The record fields a slice of the self-check reads are damaged (R32). -/
def sliceRecordBad (r : ImageRecord) : Bool := r.bad.contains .extent || (r.progress.getD 0 == 0 && r.headerBad)

theorem sliceRecordBad_iff (r : ImageRecord) : sliceRecordBad r = true ↔ ImageField.extent ∈ r.bad
    ∨ (r.progress.getD 0 = 0 ∧ (ImageField.tag ∈ r.bad ∨ ImageField.regionCount ∈ r.bad
      ∨ ∃ k : SlotId, k.val < r.regionCount.getD 0 ∧ (r.slots.get k).parityBad = true)) := by
  unfold sliceRecordBad
  rw [Bool.or_eq_true, Bool.and_eq_true, List.contains_iff_mem, beq_iff_eq, headerBad_iff]

/-- The entries of the check list that the next slice of a self-check reads (R32). -/
def sliceEntries (s : State) (i : ImageId) (x : Extent) : List CheckEntry :=
  (List.range (min 16 (x.count - (s.image i).progress.getD 0))).map fun k =>
    s.checkList.read (x.first + (s.image i).progress.getD 0 + k)

variable {s i} in
theorem beginSlice_image {x : Extent} (extent : (s.image i).extent = some x) : s.beginSlice (.image i) =
    { s with
      engine := some
        ⟨.image i
          ((if (s.image i).progress.getD 0 = 0 then (s.image i).header else [])
            ++ ((sliceEntries s i x).map fun e => be 4 e.value.toNat).flatten)
          (min 16 (x.count - (s.image i).progress.getD 0))
          (if sliceRecordBad (s.image i) then some FaultFlag.image
            else if (sliceEntries s i x).any (·.parityBad) then some FaultFlag.checklist else none), false⟩ } := by
  show s.beginImageSlice i = _
  unfold State.beginImageSlice State.imageWork
  dsimp only
  rw [extent]
  rfl

theorem sliceEntries_any (x : Extent) : (sliceEntries s i x).any (·.parityBad) = true ↔
    ∃ k < min 16 (x.count - (s.image i).progress.getD 0),
      (s.checkList.read (x.first + (s.image i).progress.getD 0 + k)).parityBad = true := by
  unfold sliceEntries
  simp only [List.any_map, List.any_eq_true, List.mem_range, Function.comp_apply]

theorem setImage_setImage (q r : ImageRecord) : (s.setImage i q).setImage i r = s.setImage i r := by
  unfold State.setImage
  rw [Vector.set_set]

theorem raiseFault_image (k : FaultFlag) (j : ImageId) : (s.raiseFault k).image j = s.image j :=
  congrArg (fun l => Vector.get l j) (kept_field Kept.images (s.raiseFault_kept k))

theorem raiseFault_setImage (k : FaultFlag) (r : ImageRecord) :
    (s.setImage i r).raiseFault k = (s.raiseFault k).setImage i r := by
  unfold State.raiseFault
  show (if s.faults.get k then _ else _) = _
  split <;> rfl

/-- An image after its self-check ended (R33). -/
def checkEnded (u : State) (i : ImageId) (r : ImageRecord) (k : ImageState) (computed : Word) (byParity : Bool) : State :=
  (u.setImage i { r with state := k, progress := none, acc := none, bad := r.bad.filter (· ≠ .state) }).queueAlert
    (.image i k r.tag computed byParity)

theorem refreshed_state (r : ImageRecord) : r.refreshed [.state] = { r with bad := r.bad.filter (· ≠ .state) } := by
  unfold ImageRecord.refreshed
  refine congrArg (fun l => { r with bad := l }) (List.filter_congr fun k _ => ?_)
  cases k <;> rfl

theorem endSelfCheck_eq (k : ImageState) (computed : Word) (byParity : Bool) :
    s.endSelfCheck i k computed byParity = checkEnded s i (s.image i) k computed byParity := by
  unfold State.endSelfCheck
  dsimp only
  rw [refreshed_state]
  rfl

/-- A fold before the end of a self-check leaves no trace in the record. -/
theorem endSelfCheck_folded (bytes : List Byte) (m : Nat) (k : ImageState) (computed : Word) (byParity : Bool) :
    (s.setImage i ((s.image i).foldSlice bytes m)).endSelfCheck i k computed byParity =
      checkEnded s i (s.image i) k computed byParity := by
  rw [endSelfCheck_eq, State.image_setImage, if_pos rfl]
  unfold checkEnded
  rw [setImage_setImage]
  rfl

theorem selfCheckFault_eq (k : FaultFlag) :
    s.selfCheckFault i k = checkEnded (s.raiseFault k) i (s.image i) .defective 0 true := by
  unfold State.selfCheckFault
  rw [endSelfCheck_eq, raiseFault_image]

theorem selfCheckFault_folded (bytes : List Byte) (m : Nat) (k : FaultFlag) :
    (s.setImage i ((s.image i).foldSlice bytes m)).selfCheckFault i k =
      checkEnded (s.raiseFault k) i (s.image i) .defective 0 true := by
  unfold State.selfCheckFault
  rw [raiseFault_setImage, ← raiseFault_image s k i, endSelfCheck_folded]

end

section
variable {s : State} {i : ImageId} {bytes : List Byte} {m : Nat}

theorem imageSliceResult_fault (k : FaultFlag) : s.imageSliceResult i bytes m (some k) = s.selfCheckFault i k := rfl

theorem imageSliceResult_extentBad (bad : ImageField.extent ∈ (s.image i).bad) :
    s.imageSliceResult i bytes m none = s.selfCheckFault i .image :=
  if_pos (List.contains_iff_mem.mpr bad)

variable (sound : ImageField.extent ∉ (s.image i).bad)
include sound

theorem imageSliceResult_sound : s.imageSliceResult i bytes m none =
    if ((s.image i).foldSlice bytes m).checked then
      (s.setImage i ((s.image i).foldSlice bytes m)).selfCheckCompare i
    else s.setImage i ((s.image i).foldSlice bytes m) := by
  unfold State.imageSliceResult
  dsimp only
  rw [if_neg fun bad => sound (List.contains_iff_mem.mp bad), State.image_setImage, if_pos rfl]

end

theorem checked_foldSlice_iff (r : ImageRecord) (bytes : List Byte) (m : Nat) : (r.foldSlice bytes m).checked = true ↔
    r.extent.elim 0 Extent.count ≤ r.progress.getD 0 + m := by
  unfold ImageRecord.checked ImageRecord.foldSlice
  cases r.extent <;> exact decide_eq_true_iff

section
variable (s : State) (i : ImageId) (bytes : List Byte) (m : Nat)

theorem selfCheckCompare_damaged (bad : ImageField.expected ∈ (s.image i).bad) :
    (s.setImage i ((s.image i).foldSlice bytes m)).selfCheckCompare i =
      checkEnded (s.raiseFault .image) i (s.image i) .defective 0 true := by
  unfold State.selfCheckCompare
  dsimp only
  rw [State.image_setImage, if_pos rfl]
  exact (if_pos (List.contains_iff_mem.mpr bad)).trans (selfCheckFault_folded s i bytes m .image)

theorem selfCheckCompare_sound (sound : ImageField.expected ∉ (s.image i).bad) :
    (s.setImage i ((s.image i).foldSlice bytes m)).selfCheckCompare i =
      checkEnded s i (s.image i)
        (if (s.image i).expected = some (~~~crcFold ((s.image i).acc.getD 0xFFFFFFFF) bytes) then .ready else .defective)
        (~~~crcFold ((s.image i).acc.getD 0xFFFFFFFF) bytes) false := by
  unfold State.selfCheckCompare
  dsimp only
  rw [State.image_setImage, if_pos rfl]
  exact (if_neg fun bad => sound (List.contains_iff_mem.mp bad)).trans (endSelfCheck_folded s i bytes m _ _ _)

end

/-- Settles O35, by what a slice of the self-check reads and what its end makes of the image. -/
theorem imageSliceChecks : Obligations.ImageSliceChecks := by
  unfold Obligations.ImageSliceChecks
  refine ⟨fun s i x extent => ?begins, fun s t i bytes n e running engine => ?ends⟩
  case begins =>
    intro r progress regions n entry region header headerDamaged recordDamaged begun
    have begin_ : s.beginSlice (.image i) = begun (if sliceRecordBad r then some .image
        else if (sliceEntries s i x).any (·.parityBad) then some .checklist else none) := by
      have serial : ((sliceEntries s i x).map fun e => be 4 e.value.toNat).flatten =
          (List.range n).flatMap fun k => be 4 (entry k).value.toNat := by
        unfold sliceEntries
        rw [List.map_map]
        rfl
      rw [beginSlice_image extent, serial]
      rfl
    rw [begin_]
    refine ⟨fun bad => ?record, fun good bad => ?entries, fun good sound => ?sound⟩
    case record => rw [if_pos ((sliceRecordBad_iff r).mpr bad)]
    case entries =>
      rw [if_neg fun bad => good ((sliceRecordBad_iff r).mp bad), if_pos ((sliceEntries_any s i x).mpr bad)]
    case sound =>
      rw [if_neg fun bad => good ((sliceRecordBad_iff r).mp bad), if_neg fun bad => ?_]
      obtain ⟨k, below, damaged⟩ := (sliceEntries_any s i x).mp bad
      rw [show (s.checkList.read _).parityBad = false from sound k below] at damaged
      cases damaged
  case ends =>
    have runs : exec (.imageSliceComplete t) s =
        .next ((s.advance t).imageSliceResult i bytes n e).nextSlice := by
      rw [exec_imageSliceComplete s t running, imageSliceComplete_image (s := s.advance t) engine]
      rfl
    have checked := checked_foldSlice_iff (s.image i) bytes n
    rw [runs]
    refine ⟨fun none bad => ?extent, fun none sound more => ?more, fun none sound last bad => ?expected,
      fun none sound last good same => ?ready, fun none sound last good other => ?defective, fun k some => ?fault⟩
    case extent =>
      rw [none, imageSliceResult_extentBad (s := s.advance t) bad, selfCheckFault_eq]
      rfl
    case more =>
      rw [none, imageSliceResult_sound (s := s.advance t) sound]
      exact congrArg (fun u => Host.Outcome.next (State.nextSlice u))
        (if_neg fun all => absurd (checked.mp all) (not_le.mpr more))
    case expected =>
      rw [none, imageSliceResult_sound (s := s.advance t) sound]
      exact congrArg (fun u => Host.Outcome.next (State.nextSlice u))
        ((if_pos (checked.mpr last)).trans (selfCheckCompare_damaged (s.advance t) i bytes n bad))
    case ready =>
      rw [none, imageSliceResult_sound (s := s.advance t) sound]
      refine congrArg (fun u => Host.Outcome.next (State.nextSlice u))
        ((if_pos (checked.mpr last)).trans ((selfCheckCompare_sound (s.advance t) i bytes n good).trans ?_))
      rw [State.advance_image, if_pos same]
      rfl
    case defective =>
      rw [none, imageSliceResult_sound (s := s.advance t) sound]
      refine congrArg (fun u => Host.Outcome.next (State.nextSlice u))
        ((if_pos (checked.mpr last)).trans ((selfCheckCompare_sound (s.advance t) i bytes n good).trans ?_))
      rw [State.advance_image, if_neg other]
      rfl
    case fault =>
      rw [some, imageSliceResult_fault, selfCheckFault_eq]
      rfl

end Sys2Proof.Proofs
end

section
/-! The supply monitor (C7): sample times, conversions, the holds they cause and the answers at the gate; and SUPPLY SET: O36,
O38, O39 and O40 (R128 to R139). -/

namespace Sys2Proof.Proofs
open Sys2Proof.Machine

/-! ## The request at the head of the queue (R14, R160) -/

section
variable {s : State} {c : Instr} {t : Time} {r : Request} {frame : CanFrame} {rest : List CanFrame}
  {carry : List Byte → State → State × Answer}

/-- The asked request answers in the state and with the bytes its carrying out gives, where it offers no frame to TRUNK. -/
theorem exec_asked (runs : exec c s = .next ((s.advance t).takeRequest r carry)) (asked : Asked s r frame rest)
    {u : State} {a : Answer} (carried : carry (params frame) (Taken s t rest) = (u, a)) (offers : u.offers = s.offers) :
    exec c s = .next (Answered u frame a.bytes) := by
  rw [runs, takeRequest_quiet t asked, carried]
  rw [carried]
  exact offers.trans asked.offered

end

/-! ## Sample times and settings (R128, R139) -/

section
variable {s : State}

theorem sampleTime_idle (due : s.supply.nextSample ≤ s.now) (idle : s.supply.converter = .idle) : s.sampleTime =
    { s with
      supply :=
        { s.supply with
          converter := .converting (s.now + 200) s.supply.waiting, waiting := []
          nextSample := s.supply.nextSample + 1000 * s.supply.settings.period } } := by
  unfold State.sampleTime
  have now : s.sampleDue = true := decide_eq_true due
  refine (if_pos now).trans ?_
  rw [idle]
  rfl

theorem sampleTime_converting {done : Time} {served : List FlowId} (due : s.supply.nextSample ≤ s.now)
    (busy : s.supply.converter = .converting done served) : s.sampleTime =
    { s with
      supply :=
        { s.supply with
          periodicDue := true, nextSample := s.supply.nextSample + 1000 * s.supply.settings.period } } := by
  unfold State.sampleTime
  have now : s.sampleDue = true := decide_eq_true due
  refine (if_pos now).trans ?_
  rw [busy]
  rfl

theorem sampleTime_early (early : s.now < s.supply.nextSample) : s.sampleTime = s :=
  if_neg (by rw [State.sampleDue, decide_eq_true_iff]; exact not_le.mpr early)

theorem limitsOrdered_iff (ordered : Nat → Nat → Bool) (a b : Nat) :
    limitsOrdered ordered a b = true ↔ (a ≠ 0 → b ≠ 0 → ordered a b = true) := by
  unfold limitsOrdered
  rw [Bool.or_eq_true, Bool.or_eq_true, beq_iff_eq, beq_iff_eq, or_assoc]
  constructor
  · rintro (zero | zero | holds) notA notB
    · exact (notA zero).elim
    · exact (notB zero).elim
    · exact holds
  · intro holds
    by_cases zeroA : a = 0
    · exact Or.inl zeroA
    · by_cases zeroB : b = 0
      · exact Or.inr (Or.inl zeroB)
      · exact Or.inr (Or.inr (holds zeroA zeroB))

theorem legal_iff (g : SupplySettings) : g.legal = true ↔ LegalSettings g := by
  unfold SupplySettings.legal
  simp only [Bool.and_eq_true, decide_eq_true_eq, limitsOrdered_iff]
  constructor
  · rintro ⟨⟨⟨⟨⟨⟨⟨⟨⟨⟨⟨low, high⟩, above⟩, below⟩, limit⟩, critical⟩, restore⟩, shallow⟩, deep⟩, criticalLow⟩, lowRestore⟩,
      criticalRestore⟩
    exact ⟨⟨low, high⟩, ⟨above, below⟩, ⟨limit, critical, restore⟩, ⟨shallow, deep⟩, criticalLow, lowRestore, criticalRestore⟩
  · rintro ⟨⟨low, high⟩, ⟨above, below⟩, ⟨limit, critical, restore⟩, ⟨shallow, deep⟩, criticalLow, lowRestore,
      criticalRestore⟩
    exact ⟨⟨⟨⟨⟨⟨⟨⟨⟨⟨⟨low, high⟩, above⟩, below⟩, limit⟩, critical⟩, restore⟩, shallow⟩, deep⟩, criticalLow⟩, lowRestore⟩,
      criticalRestore⟩

end

/-- Settles O36, by the state of the converter at a sample time, and the legality of the settings. -/
theorem sampleTimesAndSettings : Obligations.SampleTimesAndSettings := by
  unfold Obligations.SampleTimesAndSettings
  refine ⟨fun s t running => ⟨fun due idle => ?idle, fun c served due busy => ?busy, fun early => ?early⟩,
    fun s t frame rest asked => ?settings⟩
  case settings =>
    intro p g
    refine ⟨fun legal => ?legal, fun illegal => ?illegal⟩
    case legal =>
      exact exec_asked (exec_supplySet s t asked.running) asked (if_pos ((legal_iff g).mpr legal)) rfl
    case illegal =>
      exact exec_asked (exec_supplySet s t asked.running) asked (if_neg fun legal => illegal ((legal_iff g).mp legal)) rfl
  case idle =>
    rw [exec_sampleTime s t running, sampleTime_idle (s := s.advance t) due idle]
    rfl
  case busy =>
    rw [exec_sampleTime s t running, sampleTime_converting (s := s.advance t) due busy]
    rfl
  case early =>
    rw [exec_sampleTime s t running, sampleTime_early (s := s.advance t) early]
    rfl

/-! ## A conversion completes (R129 to R133) -/

section
variable {s : State} {raw : Nat}

theorem nextRun_eq (run : Option CandidateRun) (k : SupplyState) : nextRun run k =
    ⟨k, if run.map CandidateRun.candidate = some k then run.elim 0 CandidateRun.count + 1 else 1⟩ := by
  unfold nextRun
  cases run with
  | none => rfl
  | some r =>
    by_cases same : r.candidate = k
    · simp [same]
    · simp [same]

theorem conversionDue_iff : s.conversionDue = true ↔
    ∃ done served, s.supply.converter = .converting done served ∧ done ≤ s.now := by
  unfold State.conversionDue
  cases s.supply.converter with
  | idle => simp
  | converting done served => simp

/-- The state after a conversion's value is kept (R129). -/
def sampled (s : State) (v : Nat) : State := s.mapSupply fun m => { m with lastSample := some v }

theorem conversionComplete_due {done : Time} {served : List FlowId} (busy : s.supply.converter = .converting done served)
    (due : done ≤ s.now) : s.conversionComplete raw =
      (((sampled s (conversionValue raw s.supply.settings.offset)).filter
        (conversionValue raw s.supply.settings.offset)).answerGates
          (conversionValue raw s.supply.settings.offset)).nextConversion :=
  if_pos (conversionDue_iff.mpr ⟨done, served, busy, due⟩)

theorem conversionComplete_early
    (h : s.supply.converter = .idle ∨ ∃ done served, s.supply.converter = .converting done served ∧ s.now < done) :
    s.conversionComplete raw = s := by
  refine if_neg fun due => ?_
  obtain ⟨done, served, busy, past⟩ := conversionDue_iff.mp due
  obtain idle | ⟨done', served', busy', early⟩ := h
  · rw [idle] at busy
    cases busy
  · rw [busy] at busy'
    cases busy'
    exact absurd past (not_le.mpr early)

variable {v : Nat}

theorem filter_same (same : s.supply.settings.candidate s.supply.state v = s.supply.state) :
    s.filter v = s.mapSupply fun m => { m with run := none } := if_pos same

variable {k : SupplyState} (candidate : s.supply.settings.candidate s.supply.state v = k) (other : k ≠ s.supply.state)
include candidate other

theorem filter_counts (short : (nextRun s.supply.run k).count < s.supply.settings.depth) :
    s.filter v = s.mapSupply fun m => { m with run := some (nextRun m.run k) } := by
  unfold State.filter
  dsimp only
  rw [candidate, if_neg other, if_neg (not_le.mpr short)]

theorem filter_changes (full : s.supply.settings.depth ≤ (nextRun s.supply.run k).count) :
    s.filter v = s.changeSupply k v := by
  unfold State.filter
  dsimp only
  rw [candidate, if_neg other, if_pos full]

end

theorem served_filter {flows : List FlowId} (ascending : flows.Pairwise (· < ·)) :
    flows = (List.finRange 16).filter fun f => f ∈ flows := by
  refine List.Pairwise.eq_of_mem_iff ascending ((List.pairwise_lt_finRange 16).filter _) fun f => ?_
  rw [List.mem_filter, decide_eq_true_iff]
  exact (and_iff_right (List.mem_finRange f)).symm

/-- Settles O38, by the candidate of the converted value and the length of its run. -/
theorem conversionCompletes : Obligations.ConversionCompletes := by
  unfold Obligations.ConversionCompletes
  refine ⟨fun w done flows ascending busy => served_filter (ascending.served done flows busy), fun s t raw running => ?_⟩
  intro m v k u count served filtered
  have run : nextRun m.run k = ⟨k, count⟩ := nextRun_eq m.run k
  have answers (w : State) : (w.answerGates v).nextConversion = filtered w := by
    show State.nextConversion (w.supply.converter.served.foldl (State.gateAnswer v) w) =
      State.nextConversion ((served w).foldl (State.gateAnswer v) w)
    refine congrArg (fun l : List FlowId => State.nextConversion (l.foldl (State.gateAnswer v) w)) ?_
    show w.supply.converter.served = match w.supply.converter with
      | .idle => []
      | .converting _ flows => flows
    cases w.supply.converter <;> rfl
  rw [exec_conversionComplete s t running raw]
  refine ⟨fun c served busy due same => ?same, fun c served busy due other short => ?counts,
    fun c served busy due other full => ?changes, fun h => ?early⟩
  case same =>
    have filters : (sampled u v).filter v = { u with supply := { m with lastSample := some v, run := none } } :=
      filter_same (s := sampled u v) same
    rw [conversionComplete_due (s := s.advance t) busy due, ← answers, ← filters]
    rfl
  case counts =>
    have filters : (sampled u v).filter v = { u with supply := { m with lastSample := some v, run := some ⟨k, count⟩ } } := by
      rw [filter_counts (s := sampled u v) (k := k) rfl other (by rw [show (sampled u v).supply.run = m.run from rfl, run]; exact short),
        ← run]
      rfl
    rw [conversionComplete_due (s := s.advance t) busy due, ← answers, ← filters]
    rfl
  case changes =>
    have filters : (sampled u v).filter v = (sampled u v).changeSupply k v :=
      filter_changes (s := sampled u v) (k := k) rfl other (by rw [show (sampled u v).supply.run = m.run from rfl, run]; exact full)
    rw [conversionComplete_due (s := s.advance t) busy due]
    refine (congrArg (fun w => Host.Outcome.next (State.trunkTakes ((State.answerGates w v).nextConversion))) filters).trans ?_
    exact congrArg (fun w => Host.Outcome.next (State.trunkTakes w)) (answers _)
  case early =>
    rw [conversionComplete_early (s := s.advance t) h]
    exact congrArg Host.Outcome.next (State.trunkTakes_nil _ running.offered)

/-! ## Supply holds (R134, R135) -/

section
variable {s : State} {f : FlowId}

/-- A flow with a supply hold (R134). -/
def supplyHeld (s : State) (f : FlowId) : State :=
  s.setFlow f { s.flow f with holds := { (s.flow f).holds with supply := true } }

theorem supplyHeld_flow : (supplyHeld s f).flow f =
    { s.flow f with holds := { (s.flow f).holds with supply := true } } := by
  unfold supplyHeld
  rw [State.flow_setFlow, if_pos rfl]

theorem supplyHold_idle (idle : (s.flow f).state.atWork = false) : s.supplyHold f = s :=
  if_neg (Bool.eq_false_iff.mp idle)

variable (working : (s.flow f).state.atWork = true)
include working

/-- What a supply hold does to a flow at work, by its record (R134). -/
theorem supplyHold_working : s.supplyHold f =
    match (s.flow f).target, (s.flow f).record with
    | some n, some (.inspected _) =>
      ((((supplyHeld s f).dropParcelWork f).refuse n UpdateCode.block.code .supply 0x00).setVerdict f .broken).setRecord f
        (recordAfterEnd (s.flow f).finalTaken)
    | some n, some (.gated g) => ((supplyHeld s f).dropGated f).refuse n g.code .supply 0x00
    | _, _ => supplyHeld s f := by
  unfold State.supplyHold
  rw [if_pos working]
  dsimp only
  rw [show (s.mapFlow f fun c => { c with holds := { c.holds with supply := true } }) = supplyHeld s f from rfl,
    supplyHeld_flow]
  rfl

theorem supplyHold_inspected {n : TargetId} {p : Inspected} (target : (s.flow f).target = some n)
    (record : (s.flow f).record = some (.inspected p)) : s.supplyHold f =
      ((((supplyHeld s f).dropParcelWork f).refuse n UpdateCode.block.code .supply 0x00).setVerdict f .broken).setRecord f
        (recordAfterEnd (s.flow f).finalTaken) := by
  rw [supplyHold_working working, target, record]

theorem supplyHold_gated {n : TargetId} {g : Gated} (target : (s.flow f).target = some n)
    (record : (s.flow f).record = some (.gated g)) :
    s.supplyHold f = ((supplyHeld s f).dropGated f).refuse n g.code .supply 0x00 := by
  rw [supplyHold_working working, target, record]

theorem supplyHold_other (record : (s.flow f).record = none ∨ (s.flow f).record = some .refused
    ∨ ∃ d k, (s.flow f).record = some (.passing d k)) : s.supplyHold f = supplyHeld s f := by
  rw [supplyHold_working working]
  obtain record | record | ⟨d, k, record⟩ := record
  · rw [record]
    cases (s.flow f).target <;> rfl
  · rw [record]
    cases (s.flow f).target <;> rfl
  · rw [record]
    cases (s.flow f).target <;> rfl

end

/-- Settles O39, by the record of the flow. -/
theorem supplyHoldsFlows : Obligations.SupplyHoldsFlows := by
  unfold Obligations.SupplyHoldsFlows
  intro s f
  exact ⟨supplyHold_idle, supplyHold_other, fun n p working => supplyHold_inspected working,
    fun n g working => supplyHold_gated working, rfl⟩

/-! ## The answers at the gate (R137) -/

section
variable (u : State) (f : FlowId)

theorem dropGated_eq : u.dropGated f =
    ((u.freeFlowCells f).withdrawGate f).setFlow f { u.flow f with fifo := [], held := none, record := none } := by
  have flow : ((u.freeFlowCells f).withdrawGate f).flow f = { u.flow f with fifo := [], held := none } := by
    rw [State.withdrawGate_flow, State.freeFlowCells_flow, if_pos rfl]
  unfold State.dropGated State.setRecord State.mapFlow
  rw [flow]

/-- A gated request is dropped beside a context that holds the same cells. -/
theorem dropGated_setFlow {d : FlowCtx} (cells : d.heldCells = (u.flow f).heldCells) : (u.setFlow f d).dropGated f =
    ((u.freeFlowCells f).withdrawGate f).setFlow f { d with fifo := [], held := none, record := none } := by
  rw [dropGated_eq, freeFlowCells_setFlow u f cells, State.flow_setFlow, if_pos rfl]
  exact setFlow_setFlow ((u.freeFlowCells f).withdrawGate f) f _ _

end

section
variable {s : State} {f : FlowId} {n : TargetId} {g : Gated} {v : Nat}

theorem passes_iff (m : Supply) (v : Nat) : m.passes v = true ↔
    m.state = .normal ∧ (m.settings.lowLimit = 0 ∨ m.settings.lowLimit ≤ v) := by
  unfold Supply.passes
  rw [Bool.and_eq_true, beq_iff_eq, Bool.or_eq_true, beq_iff_eq, decide_eq_true_iff]

theorem stoppedBy_iff (g : Gated) (h : HoldCauses) : g.stoppedBy h = true ↔ g = .activate ∧ h ≠ ⟨false, false⟩ := by
  cases g with
  | erase r => exact iff_of_false Bool.false_ne_true fun both => nomatch both.1
  | activate =>
    obtain ⟨master, supply⟩ := h
    cases master <;> cases supply <;> decide

theorem gateAnswer_other (h : ∀ g, (s.flow f).record ≠ some (.gated g)) : State.gateAnswer v s f = s := by
  unfold State.gateAnswer
  split
  · next n g target record => exact (h g record).elim
  · rfl

variable (target : (s.flow f).target = some n) (record : (s.flow f).record = some (.gated g))
include target record

theorem gateAnswer_gated : State.gateAnswer v s f =
    if !s.supply.passes v then s.refuseGated f n g .supply 0x00
    else if g.stoppedBy (s.flow f).holds then s.refuseGated f n g .held 0x00
    else s.forwardGated f n g := by
  unfold State.gateAnswer
  rw [target, record]

theorem gateAnswer_supply (blocked : ¬ s.supply.passes v = true) :
    State.gateAnswer v s f = s.refuseGated f n g .supply 0x00 := by
  rw [gateAnswer_gated target record, Bool.eq_false_of_not_eq_true blocked]
  rfl

variable (passes : s.supply.passes v = true)
include passes

theorem gateAnswer_held (stopped : g.stoppedBy (s.flow f).holds = true) :
    State.gateAnswer v s f = s.refuseGated f n g .held 0x00 := by
  rw [gateAnswer_gated target record, passes, stopped]
  rfl

theorem gateAnswer_forward (free : ¬ g.stoppedBy (s.flow f).holds = true) :
    State.gateAnswer v s f = s.forwardGated f n g := by
  rw [gateAnswer_gated target record, passes, Bool.eq_false_of_not_eq_true free]
  rfl

end

section
variable {s : State} {f : FlowId} {n : TargetId} {g : Gated}

theorem forwardGated_targetFault (bad : (s.target n).parityBad = true) : s.forwardGated f n g =
    ((s.raiseFault .target).refuse n g.code .ended 0).failFlow f .tableFault := by
  refine (if_pos bad).trans ?_
  cases g <;> rfl

variable (sound : (s.target n).parityBad = false)
include sound

theorem forwardGated_cellFault (bad : (s.heldCell f).parityBad = true) :
    s.forwardGated f n g = (s.raiseFault .cell).refuseGated f n g .broken 0x05 := by
  unfold State.forwardGated
  rw [if_neg (Bool.eq_false_iff.mp sound), if_pos bad]

variable (good : (s.heldCell f).parityBad = false)
include good

theorem forwardGated_full (full : s.room (s.target n).segment.port .dialogue = false) :
    s.forwardGated f n g = s.refuseGated f n g .broken 0x05 := by
  unfold State.forwardGated
  rw [if_neg (Bool.eq_false_iff.mp sound), if_neg (Bool.eq_false_iff.mp good)]
  exact if_neg (Bool.eq_false_iff.mp full)

/-- A request that passes the gate goes to its segment and is pending (R47, R137). -/
theorem forwardGated_room (room : s.room (s.target n).segment.port .dialogue = true) : s.forwardGated f n g =
    (Enqueued (s.dropGated f) (s.target n).segment.port .dialogue
        ⟨(s.target n).request, true, (s.heldCell f).content.frame.elim false HeldFrameInfo.brs,
          (s.heldCell f).content.bytes⟩).setFlow f
      { (s.dropGated f).flow f with
        pendingReq := some ⟨g.pendingKind, s.now + ms (s.flow f).params.responseTime⟩
        state := g.pendingKind.state } := by
  have forwarded : s.forwardGated f n g =
      ((s.toSegment n (s.heldFrame n (s.heldCell f).content)).beginPending f g.pendingKind).dropGated f := by
    unfold State.forwardGated
    rw [if_neg (Bool.eq_false_iff.mp sound), if_neg (Bool.eq_false_iff.mp good)]
    exact if_pos room
  have keeps : g.pendingKind.keepsOpen = true := by cases g <;> rfl
  have moved : (s.toSegment n (s.heldFrame n (s.heldCell f).content)).freeFlowCells f =
      Enqueued (s.freeFlowCells f) (s.target n).segment.port .dialogue (s.heldFrame n (s.heldCell f).content) :=
    freeFlowCells_enqueued s f _ _ _
  have dropped : ((s.toSegment n (s.heldFrame n (s.heldCell f).content)).beginPending f g.pendingKind).dropGated f = _ :=
    dropGated_setFlow (s.toSegment n (s.heldFrame n (s.heldCell f).content)) f
      (d := { s.flow f with
        pendingReq := some ⟨g.pendingKind, s.now + ms (s.flow f).params.responseTime⟩, state := g.pendingKind.state,
        openRegion := if g.pendingKind.keepsOpen then (s.flow f).openRegion else none }) rfl
  have cleared : (s.dropGated f).flow f = { s.flow f with fifo := [], held := none, record := none } := by
    rw [dropGated_eq, State.flow_setFlow, if_pos rfl]
  rw [forwarded, dropped, moved, heldFrame_eq, keeps, cleared, dropGated_eq]
  exact (setFlow_setFlow (Enqueued ((s.freeFlowCells f).withdrawGate f) (s.target n).segment.port .dialogue
    ⟨(s.target n).request, true, (s.heldCell f).content.frame.elim false HeldFrameInfo.brs,
      (s.heldCell f).content.bytes⟩) f { s.flow f with fifo := [], held := none, record := none } _).symm

end

theorem nextConversion_more {s : State} (more : s.supply.periodicDue = true ∨ s.supply.waiting ≠ []) :
    s.nextConversion =
      { s with
        supply :=
          { s.supply with
            periodicDue := false, converter := .converting (s.now + 200) s.supply.waiting, waiting := [] } } := by
  refine if_pos ?_
  rw [Bool.or_eq_true, Bool.not_eq_true', List.isEmpty_eq_false_iff]
  exact more

theorem nextConversion_none {s : State} (periodic : s.supply.periodicDue = false) (waiting : s.supply.waiting = []) :
    s.nextConversion = { s with supply := { s.supply with converter := .idle } } := by
  refine if_neg ?_
  rw [periodic, waiting]
  exact Bool.false_ne_true

/-- Settles O40, by the supply, the holds, the damage and the room that decide a gated request. -/
theorem gateAnswersAct : Obligations.GateAnswersAct := by
  unfold Obligations.GateAnswersAct
  refine ⟨fun s v f n g target record => ?acts, fun s v f => gateAnswer_other, fun r o seq k again => ⟨rfl, rfl, rfl⟩,
    fun s => ⟨nextConversion_more, nextConversion_none⟩⟩
  case acts =>
    have passing := passes_iff s.supply v
    have stopping := stoppedBy_iff g (s.flow f).holds
    have forwards (passes : s.supply.passes v = true) (free : ¬ (g = .activate ∧ (s.flow f).holds ≠ ⟨false, false⟩)) :
        State.gateAnswer v s f = s.forwardGated f n g :=
      gateAnswer_forward target record passes fun stopped => free (stopping.mp stopped)
    refine ⟨fun blocked => ?supply, fun passes stopped => ?held, fun passes free bad => ?target,
      fun passes free sound bad => ?cell, fun passes free sound good room => ?room, fun passes free sound good full => ?full⟩
    case supply => exact gateAnswer_supply target record fun passes => blocked (passing.mp passes)
    case held => exact gateAnswer_held target record (passing.mpr passes) (stopping.mpr stopped)
    case target => exact (forwards (passing.mpr passes) free).trans (forwardGated_targetFault bad)
    case cell => exact (forwards (passing.mpr passes) free).trans (forwardGated_cellFault sound bad)
    case room => exact (forwards (passing.mpr passes) free).trans (forwardGated_room sound good room)
    case full => exact (forwards (passing.mpr passes) free).trans (forwardGated_full sound good full)

end Sys2Proof.Proofs
end

section
/-! The responder (C9): requests that are turned away, the replies and alerts that move, and what settling does: O41 and O42 (R14,
R17, R160 to R163, R168). -/

namespace Sys2Proof.Proofs
open Sys2Proof.Machine

/-! ## Requests that are turned away (R14, R160, R163) -/

theorem exec_command {s : State} (released : s.resetHeld = false) (t : Time) (r : Request) :
    exec (r.command t) s = .next ((s.advance t).takeRequest r (State.carry r)) := by
  have event : exec (r.command t) s = s.event t fun u => u.takeRequest r (State.carry r) := by cases r <;> rfl
  exact event.trans (s.event_running t released _)

theorem tagged_iff (frame : CanFrame) : tagged frame = true ↔ 2 ≤ frame.data.length := decide_eq_true_iff

section
variable {s : State} {frame : CanFrame}

theorem requestWithoutTag_short (next : s.nextFrame = some frame) (short : frame.data.length < 2) :
    s.requestWithoutTag = s.dropHead := by
  unfold State.requestWithoutTag
  rw [next]
  exact if_neg fun tag => absurd ((tagged_iff frame).mp tag) (not_le.mpr short)

theorem requestWithoutTag_tagged (next : s.nextFrame = some frame) (tag : 2 ≤ frame.data.length) :
    s.requestWithoutTag = s := by
  unfold State.requestWithoutTag
  rw [next]
  exact if_pos ((tagged_iff frame).mpr tag)

theorem unknownRequest_unnamed (next : s.nextFrame = some frame) (tag : 2 ≤ frame.data.length)
    (unnamed : Request.ofByte (byteAt frame.data 0) = none) :
    s.unknownRequest = s.dropHead.reply frame (.refused .unknown) := by
  unfold State.unknownRequest
  rw [next]
  refine if_pos (Bool.and_eq_true_iff.mpr ⟨(tagged_iff frame).mpr tag, ?_⟩)
  rw [requestNamed, unnamed]
  rfl

theorem unknownRequest_other (next : s.nextFrame = some frame)
    (other : frame.data.length < 2 ∨ (Request.ofByte (byteAt frame.data 0)).isSome = true) : s.unknownRequest = s := by
  unfold State.unknownRequest
  rw [next]
  refine if_neg fun both => ?_
  obtain ⟨tag, unnamed⟩ := Bool.and_eq_true_iff.mp both
  obtain short | named := other
  · exact absurd ((tagged_iff frame).mp tag) (not_le.mpr short)
  · rw [Option.isNone_iff_eq_none, requestNamed] at unnamed
    rw [unnamed] at named
    cases named

end

theorem requestOfByte_iff (b : Byte) (r : Request) : Request.ofByte b = some r ↔ r.code = b := by
  constructor
  · intro found
    exact eq_of_beq (List.find?_some (p := fun r : Request => r.code == b) found)
  · rintro rfl
    cases r <;> rfl

/-- Settles O41, by the length and the code of the frame at the head of the request queue. -/
theorem requestsTurnedAway : Obligations.RequestsTurnedAway := by
  unfold Obligations.RequestsTurnedAway
  intro s t frame rest released ready queue code
  have next : (s.advance t).nextFrame = some frame := nextFrame_ready t ready queue
  have taken : (s.advance t).dropHead = Taken s t rest := dropHead_taken t ready queue
  refine ⟨fun short => ?untagged, fun tag => ?tagged, fun tag unnamed => ?unknown, fun other => ?known,
    fun r tag named short => ?short, fun r other => ?other, fun w r released waiting => ?waiting, requestOfByte_iff,
    fun d => rfl⟩
  case untagged => rw [exec_requestWithoutTag s t released, requestWithoutTag_short next short, taken]
  case tagged => rw [exec_requestWithoutTag s t released, requestWithoutTag_tagged next tag]
  case unknown =>
    rw [exec_unknown s t released, unknownRequest_unnamed next tag unnamed, taken, State.reply_eq, unknown_bytes]
  case known => rw [exec_unknown s t released, unknownRequest_other next other]
  case short => rw [exec_command released, takeRequest_short t ready queue tag named short]
  case other => rw [exec_command released, takeRequest_other t ready queue other]
  case waiting => rw [exec_command released, takeRequest_waiting t waiting]

/-! ## The frames the part makes (R17) -/

/-- The lengths a frame's data can have (R17). -/
def fdSizes : List Nat := [0, 1, 2, 3, 4, 5, 6, 7, 8, 12, 16, 20, 24, 32, 48, 64]

/-- The length of a generated frame's data is the least one that holds its content. -/
theorem fdLength_least (n : Fin 65) :
    n.val ≤ fdLength n ∧ fdLength n ∈ fdSizes ∧ ∀ m ∈ fdSizes, n.val ≤ m → fdLength n ≤ m := by
  revert n
  decide

theorem generatedFrame_padded (id : CanId) {d : List Byte} (size : d.length ≤ 64) :
    ∃ n, generatedFrame id d = ⟨id, true, true, d ++ List.replicate n 0x00⟩ ∧ d.length + n ∈ fdSizes
      ∧ ∀ m ∈ fdSizes, d.length ≤ m → d.length + n ≤ m := by
  obtain ⟨holds, mem, least⟩ := fdLength_least ⟨d.length, Nat.lt_succ_of_le size⟩
  have length : d.length + (fdLength d.length - d.length) = fdLength d.length := Nat.add_sub_of_le holds
  refine ⟨fdLength d.length - d.length, rfl, ?_⟩
  rw [length]
  exact ⟨mem, least⟩

/-- Content of a length a frame can have is not padded. -/
theorem generatedFrame_exact (id : CanId) {d : List Byte} (exactly : fdLength d.length = d.length) :
    generatedFrame id d = ⟨id, true, true, d⟩ := by
  unfold generatedFrame padded
  rw [exactly, Nat.sub_self, List.replicate_zero, List.append_nil]

theorem b1_eq (v : Nat) : b1 v = [BitVec.ofNat 8 v] := by
  rw [b1, be, be, pow_zero, Nat.div_one]

theorem b1_toNat (b : Byte) : b1 b.toNat = [b] := by
  rw [b1_eq, BitVec.ofNat_toNat, BitVec.setWidth_eq]

/-- A byte that may be absent, in one byte. -/
theorem b1_elim (b : Option Byte) : b1 (b.elim 0 BitVec.toNat) = [b.getD 0] := by
  cases b with
  | none => rfl
  | some b => exact b1_toNat b

theorem lateBytes_eq (l : Option LateResponse) : b1 (lateCode l) ++ b1 (lateReason l) =
    match l with
    | none => [0, 0]
    | some x => [x.code, x.reason.getD 0] := by
  obtain _ | ⟨code, reason⟩ := l
  · rfl
  · exact congrArg₂ (· ++ ·) (b1_toNat code) (b1_elim reason)

theorem reportFlags_eq (r : FlowReport) : r.flags = r.activationUnknown.toNat + 2 * r.late.isSome.toNat
    + 4 * r.holds.master.toNat + 8 * r.holds.supply.toNat + 16 * r.lastRefusal.isSome.toNat := by
  unfold FlowReport.flags bits
  simp only [List.foldr_cons, List.foldr_nil]
  omega

theorem faultFlags_byte (g : FaultFlags) : g.byte =
    g.route.toNat + 2 * g.target.toNat + 4 * g.image.toNat + 8 * g.checklist.toNat + 16 * g.cell.toNat := by
  unfold FaultFlags.byte bits
  simp only [List.foldr_cons, List.foldr_nil]
  omega

/-- The data of a flow alert after its flow's number (R18). -/
theorem reportBytes_eq (r : FlowReport) : r.bytes =
    b1 r.target.val ++ b1 r.image.val ++ b1 r.state.code ++ b1 (r.condition.elim 0 Condition.code)
      ++ b1 (r.activationUnknown.toNat + 2 * r.late.isSome.toNat + 4 * r.holds.master.toNat
        + 8 * r.holds.supply.toNat + 16 * r.lastRefusal.isSome.toNat)
      ++ b1 (r.lastVerdict.elim 0xFF Verdict.code) ++ [r.lastRefusal.getD 0] ++ b1 r.failures
      ++ match r.late with
        | none => [0, 0]
        | some x => [x.code, x.reason.getD 0] := by
  refine Eq.trans ?_ (congrArg (_ ++ ·) (lateBytes_eq r.late))
  rw [← reportFlags_eq, ← b1_elim]
  rfl

/-! ## A reply and an alert move (R161, R168) -/

section
variable {s : State}

theorem replyEnqueue_ready {frame : CanFrame} (waits : s.mgmt.slot = some frame)
    (room : s.room .trunk (.generated .reply) = true) :
    s.replyEnqueue = Enqueued { s with mgmt := ⟨s.mgmt.queue, none⟩ } .trunk (.generated .reply) frame := by
  unfold State.replyEnqueue
  rw [waits]
  exact if_pos room

theorem replyEnqueue_idle (h : s.mgmt.slot = none ∨ s.room .trunk (.generated .reply) = false) : s.replyEnqueue = s := by
  unfold State.replyEnqueue
  obtain none | full := h
  · rw [none]
  · cases s.mgmt.slot with
    | none => rfl
    | some frame => exact if_neg (Bool.eq_false_iff.mp full)

theorem alertMove_ready {a : Alert} {rest : List Alert} (waits : s.alerts.entries = a :: rest)
    (ready : s.alertReady = true) : s.alertMove =
      Enqueued { s with alerts := ⟨rest, true⟩ } .trunk (.generated .alert) (alertFrame s.strap a) := by
  unfold State.alertMove
  rw [waits]
  exact if_pos ready

theorem alertMove_idle (h : s.alertReady = false) : s.alertMove = s := by
  unfold State.alertMove
  cases s.alerts.entries with
  | nil => rfl
  | cons a rest => exact if_neg (Bool.eq_false_iff.mp h)

theorem alertReady_eq_false_iff : s.alertReady = false ↔
    s.alerts.entries = [] ∨ s.alerts.inFlight = true ∨ s.room .trunk (.generated .alert) = false := by
  rw [← Bool.not_eq_true, State.alertReady_iff, not_and_or, not_and_or, not_not, Bool.not_eq_false, Bool.not_eq_true]

/-! ## Settling (R160, R161, R168) -/

theorem advance_now (s : State) : s.advance s.now = s := by
  unfold State.advance
  rw [max_self]

theorem settleOnce_two (two : 2 ≤ s.atOnce.length) :
    ∃ a ∈ s.atOnce, s.settleOnce = { s with freeCount := s.freeCount + 1 }.doAtOnce a := by
  unfold State.settleOnce
  match actions : s.atOnce, two with
  | a :: b :: l, _ =>
    have chosen : Config.firstTaken s.freeCount % (a :: b :: l).length < (a :: b :: l).length :=
      Nat.mod_lt _ (Nat.zero_lt_succ _)
    refine ⟨_, List.getElem_mem chosen, ?_⟩
    dsimp only
    rw [List.getElem?_eq_getElem chosen]

theorem settleOnce_one {a : AtOnce} (one : s.atOnce = [a]) : s.settleOnce = s.doAtOnce a := by
  unfold State.settleOnce
  rw [one]

theorem settleOnce_dueBound (due : s.atOnce ≠ []) : s.settleOnce.dueBound < s.dueBound := by
  by_cases two : 2 ≤ s.atOnce.length
  · obtain ⟨a, mem, act⟩ := settleOnce_two two
    rw [act]
    exact State.doAtOnce_dueBound { s with freeCount := s.freeCount + 1 } mem
  · obtain ⟨a, one⟩ := List.length_eq_one_iff.mp
      (Nat.le_antisymm (Nat.le_of_lt_succ (not_le.mp two)) (List.length_pos_iff.mpr due))
    rw [settleOnce_one one]
    exact s.doAtOnce_dueBound (by rw [one]; exact List.mem_singleton_self a)

/-- Settling for as long as something can come leaves nothing due. -/
theorem settleFor_done {n : Nat} (enough : s.dueBound ≤ n) : (State.settleFor n s).atOnce = [] := by
  induction n generalizing s with
  | zero => exact s.atOnce_of_dueBound (Nat.le_zero.mp enough)
  | succ n ih =>
    rw [State.settleFor]
    by_cases due : s.atOnce = []
    · have still : s.settleOnce = s := s.settleFor_of_nil due 1
      rw [still, s.settleFor_of_nil due n]
      exact due
    · exact ih (Nat.le_of_lt_succ (Nat.lt_of_lt_of_le (settleOnce_dueBound due) enough))

theorem settle_atOnce (s : State) : s.settle.atOnce = [] := settleFor_done s.dueBound_le

theorem settle_settle (s : State) : s.settle.settle = s.settle := State.settleFor_of_nil _ (settle_atOnce s) _

theorem settle_resetHeld (s : State) : s.settle.resetHeld = s.resetHeld := congrArg Outer.resetHeld s.settle_outer

/-- An event from outside has its effect after the part has settled. -/
theorem exec_fromOutside {c : Instr} (outside : c.fromOutside = true) :
    ∃ t f, ∀ s : State, exec c s = s.settledEvent t f := by
  cases c with
  | frameArrival t p frame => exact ⟨t, fun s => (s.arrival p frame).trunkTakes, fun _ => rfl⟩
  | receptionError t p => exact ⟨t, fun s => s.receptionError p, fun _ => rfl⟩
  | transmissionAttemptStart t p => exact ⟨t, fun s => s.attemptStart p, fun _ => rfl⟩
  | transmissionSuccess t p => exact ⟨t, fun s => s.transmissionSuccess p, fun _ => rfl⟩
  | arbitrationLost t p => exact ⟨t, fun s => s.setPort p { s.port p with queue := unmark (s.port p).queue }, fun _ => rfl⟩
  | transmissionError t p => exact ⟨t, fun s => (s.transmissionError p).trunkTakes, fun _ => rfl⟩
  | recoveryComplete t p => exact ⟨t, fun s => s.recoveryComplete p, fun _ => rfl⟩
  | pendingDeadlineExpiry t f => exact ⟨t, fun s => s.pendingExpiry f, fun _ => rfl⟩
  | gapDeadlineExpiry t f => exact ⟨t, fun s => (s.gapExpiry f).trunkTakes, fun _ => rfl⟩
  | windowExpiry t => exact ⟨t, fun s => s.windowExpiry, fun _ => rfl⟩
  | flowSliceComplete t => exact ⟨t, fun s => s.flowSliceComplete.trunkTakes, fun _ => rfl⟩
  | imageSliceComplete t => exact ⟨t, fun s => s.imageSliceComplete, fun _ => rfl⟩
  | sampleTime t => exact ⟨t, fun s => s.sampleTime, fun _ => rfl⟩
  | conversionComplete t raw => exact ⟨t, fun s => (s.conversionComplete raw).trunkTakes, fun _ => rfl⟩
  | _ => cases outside

theorem nextFrame_head {frame : CanFrame} (ready : s.mgmt.slot = none) (head : s.mgmt.queue.head? = some frame) :
    s.nextFrame = some frame := by
  unfold State.nextFrame State.ready
  rw [ready]
  exact head

theorem take_mem_atOnce {frame : CanFrame} (next : s.nextFrame = some frame) : AtOnce.take ∈ s.atOnce := by
  unfold State.atOnce
  rw [next]
  exact List.mem_append_left _ (List.mem_append_left _ (List.mem_singleton_self _))

/-- The command for the head frame takes that frame (R160, R163). -/
theorem exec_frameCommand {frame : CanFrame} (released : s.resetHeld = false) (t : Time)
    (next : (s.advance t).nextFrame = some frame) :
    exec (frameCommand t frame) s = .next (s.advance t).takeHead := by
  unfold frameCommand State.takeHead
  rw [next]
  dsimp only
  cases tagged frame with
  | false => exact exec_requestWithoutTag s t released
  | true =>
    rw [if_pos rfl, if_pos rfl]
    cases requestNamed frame with
    | none => exact exec_unknown s t released
    | some r => exact exec_command released t r

/-! ## The order of the frames for TRUNK (R162) -/

theorem alertClaims_iff : s.alertClaims = true ↔
    s.alerts.entries ≠ [] ∧ s.alerts.inFlight = false ∧ s.room .trunk (.generated .alert) = true
      ∧ ∀ x ∈ s.offers, x.ahead = false := by
  unfold State.alertClaims
  rw [Bool.and_eq_true, State.alertReady_iff, and_assoc, and_assoc, List.all_eq_true]
  simp only [Bool.not_eq_true']

theorem trunkClaims_length : s.trunkClaims.length = 1 + (s.replyReady.toNat + s.alertClaims.toNat) := by
  unfold State.trunkClaims
  cases s.replyReady <;> cases s.alertClaims <;> rfl

theorem contested_iff : s.contested = true ↔ (s.replyReady = true ∨ s.alertClaims = true)
    ∧ (32 < (s.port .trunk).queue.length + s.offers.length + (s.replyReady.toNat + s.alertClaims.toNat)
      ∨ ∃ x ∈ s.offers, x.frame.id ∈ managementIds s.strap) := by
  have several : 1 < s.trunkClaims.length ↔ s.replyReady = true ∨ s.alertClaims = true := by
    rw [trunkClaims_length]
    cases s.replyReady <;> cases s.alertClaims <;> decide
  unfold State.contested
  rw [Bool.and_eq_true, decide_eq_true_iff, several, Bool.or_eq_true, decide_eq_true_iff, List.any_eq_true, trunkClaims_length]
  simp only [List.contains_iff_mem]
  refine and_congr_right fun _ => or_congr_left ?_
  omega

theorem ite_eq_toNat {b : Bool} {p : Prop} [Decidable p] (h : b = true ↔ p) : (if p then 1 else 0) = b.toNat := by
  cases b with
  | false => exact if_neg fun holds => Bool.false_ne_true (h.mpr holds)
  | true => exact if_pos (h.mp rfl)

end

/-- Settles O42, by the data of each alert, the bound that settling works down, and the claims to a place in the queue of TRUNK. -/
theorem dueActionsTakenAtOnce : Obligations.DueActionsTakenAtOnce := by
  unfold Obligations.DueActionsTakenAtOnce
  intro lateBytes alertData sizes
  have content (strap : BitVec 3) (a : Alert) : alertFrame strap a =
      ⟨⟨.base, BitVec.ofNat 29 (0x7A0 + 4 * strap.toNat + 2)⟩, true, true, alertData a⟩ := by
    cases a with
    | flow f r =>
      refine (generatedFrame_exact (alertId strap) rfl).trans (congrArg (CanFrame.mk (alertId strap) true true) ?_)
      exact congrArg ([0x01] ++ b1 f.val ++ ·) (reportBytes_eq r)
    | progress f r => rfl
    | image i k tag computed byParity => exact generatedFrame_exact (alertId strap) rfl
    | supply new previous value => exact generatedFrame_exact (alertId strap) rfl
    | window cause failed => cases cause <;> rfl
    | fault g =>
      refine (generatedFrame_exact (alertId strap) rfl).trans (congrArg (CanFrame.mk (alertId strap) true true) ?_)
      exact congrArg ([0x06, 0x00] ++ b1 ·) (faultFlags_byte g)
  refine ⟨fun id d size => generatedFrame_padded id size, fun s t released => ⟨fun frame waits room => ?reply,
    fun h => ?noReply, fun a rest waits idle room => ?alert, fun h => ?noAlert⟩, fun s c outside released => ?settles,
    fun s released offered => ?settled, fun s => s.settle_of_running, fun s released => ⟨fun offered => ?still,
      fun a => settleOnce_one, settleOnce_two, fun frame ready head => ?take, ?replies, ?alerts⟩, fun s => ?takes⟩
  case reply =>
    exact (exec_replyEnqueue s t released).trans
      (congrArg Host.Outcome.next (replyEnqueue_ready (s := s.advance t) waits room))
  case noReply => rw [exec_replyEnqueue s t released, replyEnqueue_idle (s := s.advance t) h]
  case alert =>
    have ready : s.alertReady = true := s.alertReady_iff.mpr ⟨by rw [waits]; exact List.cons_ne_nil a rest, idle, room⟩
    have moved := alertMove_ready (s := s.advance t) waits ready
    rw [content] at moved
    exact (exec_alertMove s t released).trans (congrArg Host.Outcome.next moved)
  case noAlert =>
    rw [exec_alertMove s t released, alertMove_idle (s := s.advance t) (alertReady_eq_false_iff.mpr h)]
  case settles =>
    obtain ⟨t, f, event⟩ := exec_fromOutside outside
    rw [event, event, State.settledEvent_released _ t released,
      State.settledEvent_released _ t ((settle_resetHeld s).trans released), settle_settle]
  case settled =>
    have outer := s.settle_outer
    exact ⟨(running_iff _).mpr ⟨(settle_resetHeld s).trans released, s.settle_offers offered, settle_atOnce s⟩,
      congrArg Outer.now outer, congrArg Outer.pending outer, congrArg Outer.outside outer⟩
  case still =>
    rw [running_iff]
    exact ⟨fun nothing => ⟨released, offered, nothing⟩, fun ⟨_, _, nothing⟩ => nothing⟩
  case take =>
    have next := nextFrame_head ready head
    have taken := exec_frameCommand released s.now (frame := frame) (by rw [advance_now, next])
    rw [advance_now] at taken
    exact ⟨take_mem_atOnce next, taken⟩
  case replies => rw [exec_replyEnqueue s s.now released, advance_now, State.doAtOnce]
  case alerts => rw [exec_alertMove s s.now released, advance_now, State.doAtOnce]
  case takes =>
    intro canReply canAlert others decides free
    have replies : s.replyReady = true ↔ canReply := s.replyReady_iff
    have alerts : s.alertClaims = true ↔ canAlert := alertClaims_iff
    have contested : s.contested = true ↔ decides := by
      rw [contested_iff, replies, alerts, ← ite_eq_toNat replies, ← ite_eq_toNat alerts]
    refine ⟨s.trunkTakes_nil, s.trunkTakes_offers, fun o rest offered => ⟨fun clear => ?clear, fun decided => ?contested⟩⟩
    case clear =>
      exact s.trunkTakes_free offered (Bool.eq_false_of_not_eq_true fun h => clear (contested.mp h))
    case contested =>
      obtain ⟨c, mem, one⟩ := s.trunkTakesOne_contested (contested.mpr decided)
      rw [s.trunkTakes_cons (by rw [offered]; exact List.cons_ne_nil o rest), one]
      obtain rfl | ⟨rfl, ready⟩ | ⟨rfl, ready⟩ := s.mem_trunkClaims.mp mem
      · refine Or.inl ?_
        rw [State.takeClaim, State.offerJoins_cons free (x := o) (rest := rest) offered]
      · obtain ⟨waits, room⟩ := replies.mp ready
        obtain ⟨frame, waits'⟩ := Option.ne_none_iff_exists'.mp waits
        refine Or.inr (Or.inl ⟨frame, replies.mp ready, waits', ?_⟩)
        rw [State.takeClaim, replyEnqueue_ready (s := free) waits' room]
      · obtain ⟨a, after, waits⟩ := List.exists_cons_of_ne_nil (alerts.mp ready).1
        refine Or.inr (Or.inr ⟨a, after, alerts.mp ready, waits, ?_⟩)
        rw [State.takeClaim, alertMove_ready (s := free) waits (s.alertReady_of_claims ready), content]

end Sys2Proof.Proofs
end

section
/-! The requests that ask (C9): STATUS, FLOW QUERY, IMAGE QUERY, SUPPLY QUERY and the codes of their fields: O43 (R18, R35,
R140, R164, R165). -/

namespace Sys2Proof.Proofs
open Sys2Proof.Machine

/-! ## Numbers in the data of a frame -/

theorem be_two (v : Nat) : be 2 v = [BitVec.ofNat 8 (v / 2 ^ 8), BitVec.ofNat 8 v] := by
  rw [be, be, be, pow_zero, Nat.div_one]
  rfl

theorem be_four (v : Nat) : be 4 v =
    [BitVec.ofNat 8 (v / 2 ^ 24), BitVec.ofNat 8 (v / 2 ^ 16), BitVec.ofNat 8 (v / 2 ^ 8), BitVec.ofNat 8 v] := by
  rw [be, be, be_two]
  rfl

theorem fieldAt_one (d : List Byte) (k : Nat) : fieldAt d k 1 = (byteAt d k).toNat := by
  unfold fieldAt byteAt
  by_cases size : k < d.length
  · rw [List.drop_eq_getElem_cons size, List.take_succ_cons, List.take_zero, List.getD_eq_getElem d 0 size, beNat,
      List.foldl_cons, List.foldl_nil, Nat.mul_zero, Nat.zero_add]
  · rw [List.drop_eq_nil_of_le (not_lt.mp size), List.take_nil, List.getD_eq_default d 0 (not_lt.mp size)]
    rfl

/-! ## Flows (R165) -/

theorem holdsByte_eq (h : HoldCauses) : h.byte = h.master.toNat + 2 * h.supply.toNat := by
  unfold HoldCauses.byte bits
  simp only [List.foldr_cons, List.foldr_nil]
  omega

theorem flowFlags_eq (c : FlowCtx) : c.flags = c.activationUnknown.toNat + 2 * c.late.isSome.toNat
    + 4 * c.holds.master.toNat + 8 * c.holds.supply.toNat + 16 * c.lastRefusal.isSome.toNat
    + 32 * c.lastAccepted.isSome.toNat := by
  unfold FlowCtx.flags bits
  simp only [List.foldr_cons, List.foldr_nil]
  omega

theorem remaining_eq (c : FlowCtx) : c.remaining = c.openRegion.elim 0 fun o => o.length - c.acceptedBytes := by
  unfold FlowCtx.remaining
  cases c.openRegion <;> rfl

/-- The state of a region of a binding, 0xFF for one it does not have (R165). -/
def regionByte (b : Binding) (k : Nat) : List Byte := b1 (b.regions[k]?.elim 0xFF RegionState.code)

theorem bindingFields_some (b : Binding) : bindingFields (some b) =
    b1 b.target.val ++ b1 b.image.val ++ b1 b.params.level
      ++ b1 (if b.params.retryLimit = 16 then 0 else b.params.retryLimit) ++ b1 b.params.progressInterval
      ++ b1 (b.params.responseTime / 10) ++ b1 (b.params.waitExtension / 100) ++ b1 (b.params.gapLimit / 10)
      ++ b1 b.params.cellQuota ++ b1 b.regions.length ++ regionByte b 0 ++ regionByte b 1 ++ regionByte b 2
      ++ regionByte b 3 ++ regionByte b 4 ++ regionByte b 5 ++ regionByte b 6 ++ regionByte b 7 := by
  have eight : List.range 8 = [0, 1, 2, 3, 4, 5, 6, 7] := rfl
  unfold bindingFields FlowParams.bytes regionByte
  rw [eight]
  simp only [List.flatMap_cons, List.flatMap_nil, List.append_assoc, List.append_nil]

theorem bindingFields_none : bindingFields none = [0xFF, 0xFF, 0, 0, 0, 0, 0, 0, 0, 0] ++ List.replicate 8 0xFF := by
  decide

/-! ## Images (R35) -/

theorem slots_toList (slots : Vector Slot 8) : slots.toList = (List.finRange 8).map slots.get := by
  refine List.ext_getElem (by simp) fun k _ _ => ?_
  rw [List.getElem_map, List.getElem_finRange]
  rfl

theorem slotMap_eq (r : ImageRecord) : r.slotMap =
    (r.slots.get 0).region.isSome.toNat + 2 * (r.slots.get 1).region.isSome.toNat
      + 4 * (r.slots.get 2).region.isSome.toNat + 8 * (r.slots.get 3).region.isSome.toNat
      + 16 * (r.slots.get 4).region.isSome.toNat + 32 * (r.slots.get 5).region.isSome.toNat
      + 64 * (r.slots.get 6).region.isSome.toNat + 128 * (r.slots.get 7).region.isSome.toNat := by
  have eight : List.finRange 8 = [0, 1, 2, 3, 4, 5, 6, 7] := rfl
  unfold ImageRecord.slotMap bits
  rw [slots_toList, eight]
  simp only [List.map_cons, List.map_nil, List.foldr_cons, List.foldr_nil]
  omega

theorem queryBad_iff (r : ImageRecord) :
    r.queryBad = true ↔ r.bad ≠ [] ∨ ∃ k : SlotId, (r.slots.get k).parityBad = true := by
  have slots : r.slots.toList.any (·.parityBad) = true ↔ ∃ k : SlotId, (r.slots.get k).parityBad = true := by
    simp [slots_toList]
  unfold ImageRecord.queryBad
  rw [Bool.or_eq_true, Bool.not_eq_true', List.isEmpty_eq_false_iff, slots]

theorem imageExtent_fields (x : Option Extent) : be 2 (x.elim 0 Extent.first) ++ be 2 (x.elim 0 Extent.count) =
    match x with
    | some x => be 2 x.first ++ be 2 x.count
    | none => [0, 0, 0, 0] := by
  cases x <;> rfl

theorem carryImageQuery_eq {p : List Byte} (u : State) {i : ImageId} (image : fieldAt p 0 1 = i.val) :
    State.carryImageQuery p u =
      ((u.raiseIf (u.image i).queryBad .image).removeAlert (.image i)).done (u.image i).fields := by
  unfold State.carryImageQuery
  rw [below_val image]

/-! ## The part (R140, R164) -/

theorem countdown_eq (s : State) : s.countdown =
    match s.window.state, s.window.expiry with
    | .opened, some e => (e - s.now) / 1000
    | _, _ => 0 := by
  unfold State.countdown
  cases s.window.state <;> cases s.window.expiry <;> rfl

theorem supplyFields_eq (m : Supply) : m.fields =
    b1 m.state.code ++ be 2 (m.lastSample.getD 0xFFFF) ++ b1 m.settings.period
      ++ be 2 (BitVec.ofInt 16 m.settings.offset).toNat ++ be 2 m.settings.lowLimit ++ be 2 m.settings.criticalLimit
      ++ be 2 m.settings.restoreLimit ++ b1 m.settings.depth
      ++ (match m.run with
        | some x => b1 x.candidate.code ++ b1 x.count
        | none => [0xFF, 0x00])
      ++ (match m.converter with
        | .idle => b1 0 ++ b1 m.waiting.length
        | .converting _ served => b1 1 ++ b1 (m.waiting.length + served.length)) := by
  unfold Supply.fields Supply.outstanding
  cases m.run <;> cases m.converter <;> rfl

theorem statusFields_eq (s : State) : s.statusFields =
    ([0x36, 0x20, 0x02] : List Byte) ++ b1 s.mode.code ++ b1 s.defaultAction.code ++ b1 s.window.state.code
      ++ be 2 (match s.window.state, s.window.expiry with
        | .opened, some e => (e - s.now) / 1000
        | _, _ => 0)
      ++ b1 s.supply.state.code ++ be 2 (s.supply.lastSample.getD 0xFFFF)
      ++ be 2 (s.cells.toList.countP fun c => !c.inUse) ++ b1 (allFlows.countP fun f => (s.flow f).state != .free)
      ++ (b1 (s.port .trunk).conf.code ++ b1 (s.port .seg0).conf.code ++ b1 (s.port .seg1).conf.code
        ++ b1 (s.port .seg2).conf.code ++ b1 (s.port .seg3).conf.code)
      ++ b1 s.faults.byte ++ b1 s.strap.toNat ++ b1 s.alerts.entries.length := by
  have identity : be 2 0x3620 ++ b1 2 = [0x36, 0x20, 0x02] := by decide
  have ports : allPorts.flatMap (fun p => b1 (s.port p).conf.code) =
      b1 (s.port .trunk).conf.code ++ b1 (s.port .seg0).conf.code ++ b1 (s.port .seg1).conf.code
        ++ b1 (s.port .seg2).conf.code ++ b1 (s.port .seg3).conf.code := by
    simp only [allPorts, List.flatMap_cons, List.flatMap_nil, List.append_assoc, List.append_nil]
  unfold State.statusFields
  rw [identity, ports, countdown_eq]
  rfl

/-- Settles O43, by the fields of each reply. -/
theorem queriesAnswer : Obligations.QueriesAnswer := by
  unfold Obligations.QueriesAnswer
  refine ⟨fun s t frame rest => ?queries, rfl, rfl, rfl, rfl, rfl, rfl, rfl, rfl, rfl, rfl, rfl, rfl, rfl, rfl, rfl, rfl, rfl,
    rfl, fun m p => rfl, fun v => ⟨b1_eq v, be_two v, be_four v⟩,
    fun d k => ⟨fun _ => fieldAt_one d k, fieldAt_two, fieldAt_four⟩⟩
  intro u n boundFields pendingBytes parcelByte lateBytes flowFields imageFields damaged
  have bound (b : Option Binding) : bindingFields b = boundFields b := by
    cases b with
    | none => exact bindingFields_none
    | some b => exact bindingFields_some b
  have pending (p : Option PendingReq) : pendingFields (max s.now t) p = pendingBytes p := by
    obtain _ | ⟨kind, deadline⟩ := p
    · rfl
    · cases kind <;> rfl
  have parcel (r : Option ParcelRecord) : b1 (parcelCode r) = parcelByte r := by
    obtain _ | r := r
    · rfl
    · cases r <;> exact b1_eq _
  have flows (c : FlowCtx) : c.fields (max s.now t) = flowFields c := by
    unfold FlowCtx.fields
    rw [bound, pending, parcel, holdsByte_eq, flowFlags_eq, remaining_eq, List.append_assoc _ (b1 (lateCode c.late)),
      lateBytes_eq, List.append_assoc _ [c.expectedSeq]]
    rfl
  have images (r : ImageRecord) : r.fields = imageFields r r.queryBad.toNat := by
    unfold ImageRecord.fields
    rw [slotMap_eq, List.append_assoc _ (be 2 (r.extent.elim 0 Extent.first)), imageExtent_fields]
    rfl
  refine ⟨fun asked => ?status, fun asked => ?supply, fun asked past => ?flowPast, fun f asked flow => ?flow,
    fun asked past => ?imagePast, fun i asked image sound => ?sound, fun i asked image bad => ?damaged⟩
  case status =>
    exact (exec_asked (exec_status s t asked.running) asked rfl rfl).trans
      (congrArg (fun l => Host.Outcome.next (Answered u frame (doneBytes l))) (statusFields_eq u))
  case supply =>
    exact (exec_asked (exec_supplyQuery s t asked.running) asked rfl rfl).trans
      (congrArg (fun l => Host.Outcome.next (Answered u frame (doneBytes l))) (supplyFields_eq s.supply))
  case flowPast =>
    have carried : State.carryFlowQuery (params frame) u = u.refused .badValue := by
      unfold State.carryFlowQuery
      rw [below_none past]
    exact exec_asked (exec_flowQuery s t asked.running) asked carried rfl
  case flow =>
    have carried : State.carryFlowQuery (params frame) u =
        (u.removeAlert (.flow f)).done (flowFields (s.flow f)) := by
      unfold State.carryFlowQuery
      rw [below_val flow]
      exact congrArg (u.removeAlert (.flow f)).done (flows (s.flow f))
    exact exec_asked (exec_flowQuery s t asked.running) asked carried rfl
  case imagePast =>
    have carried : State.carryImageQuery (params frame) u = u.refused .badValue := by
      unfold State.carryImageQuery
      rw [below_none past]
    exact exec_asked (exec_imageQuery s t asked.running) asked carried rfl
  case sound =>
    have good : (u.image i).queryBad = false :=
      Bool.eq_false_of_not_eq_true fun bad => sound ((queryBad_iff _).mp bad)
    have carried : State.carryImageQuery (params frame) u =
        (u.removeAlert (.image i)).done (imageFields (s.image i) 0) := by
      refine (carryImageQuery_eq u image).trans ?_
      rw [images, good]
      rfl
    exact exec_asked (exec_imageQuery s t asked.running) asked carried rfl
  case damaged =>
    have damage : (u.image i).queryBad = true := (queryBad_iff _).mpr bad
    have carried : State.carryImageQuery (params frame) u =
        ((u.raiseFault .image).removeAlert (.image i)).done (imageFields (s.image i) 1) := by
      refine (carryImageQuery_eq u image).trans ?_
      rw [images, damage]
      rfl
    exact exec_asked (exec_imageQuery s t asked.running) asked carried (u.raiseFault_offers .image)

end Sys2Proof.Proofs
end

section
/-! PORT SET and PORT RESTART (C8): what a restart of a port leaves and does to the flows: O45 (R150, R153, R154). -/

namespace Sys2Proof.Proofs
open Sys2Proof.Machine

/-! ## A restart of a port (R154) -/

section
variable (s : State) (p : Port)

theorem emptyQueue_eq : s.emptyQueue p =
    { s with
      ports := s.ports.set p { s.port p with queue := [] }
      alerts :=
        { s.alerts with
          inFlight := if ∃ q ∈ (s.port p).queue, q.cls = .generated .alert then false else s.alerts.inFlight } } := by
  unfold State.emptyQueue
  rw [clearInFlight_eq]
  rfl

theorem flowsAfterEmptying_segment (segment : p ≠ .trunk) :
    s.flowsAfterEmptying p = (List.finRange 16).foldl (State.portReadsFlow p) s := by
  rw [← allFlows_eq]
  unfold State.flowsAfterEmptying
  split
  · exact (segment rfl).elim
  · rfl

theorem restart_eq : s.restart p =
    (if (s.port p).conf.carries then (s.emptyQueue p).flowsAfterEmptying p else s.emptyQueue p).setPort p
      { s.port p with queue := [], txErrors := 0, rxErrors := 0, conf := .active, recessiveRuns := 0 } := by
  have port : (if (s.port p).conf.carries then (s.emptyQueue p).flowsAfterEmptying p else s.emptyQueue p).port p =
      { s.port p with queue := [] } := by
    split
    · rw [flowsAfterEmptying_port, emptyQueue_port, if_pos rfl]
    · rw [emptyQueue_port, if_pos rfl]
  unfold State.restart
  dsimp only
  rw [port]
  rfl

theorem restart_port : (s.restart p).port p =
    { s.port p with queue := [], txErrors := 0, rxErrors := 0, conf := .active, recessiveRuns := 0 } := by
  rw [restart_eq, State.port_setPort, if_pos rfl]

variable {p}

/-- TRUNK, and a port without traffic, restart beside the flows. -/
theorem restart_quiet (quiet : p = .trunk ∨ (s.port p).conf.carries = false) : s.restart p =
    { s with
      ports := s.ports.set p
        { s.port p with queue := [], txErrors := 0, rxErrors := 0, conf := .active, recessiveRuns := 0 }
      alerts :=
        { s.alerts with
          inFlight := if ∃ q ∈ (s.port p).queue, q.cls = .generated .alert then false else s.alerts.inFlight } } := by
  have beside : (if (s.port p).conf.carries then (s.emptyQueue p).flowsAfterEmptying p else s.emptyQueue p) =
      s.emptyQueue p := by
    obtain rfl | silent := quiet
    · exact ite_id _
    · exact if_neg (Bool.eq_false_iff.mp silent)
  rw [restart_eq, beside, emptyQueue_eq]
  cases p <;> rfl

theorem restart_segment (segment : p ≠ .trunk) (carries : (s.port p).conf.carries = true) : s.restart p =
    ((List.finRange 16).foldl (State.portReadsFlow p) (s.emptyQueue p)).setPort p
      { s.port p with queue := [], txErrors := 0, rxErrors := 0, conf := .active, recessiveRuns := 0 } := by
  rw [restart_eq, if_pos carries, flowsAfterEmptying_segment _ _ segment]

end

/-! ## The requests (R150, R154) -/

theorem portOfCode_code (p : Port) : portOfCode (portCode p) = some p := by cases p <;> rfl

theorem portOfCode_past {n : Nat} (past : 4 < n) : portOfCode n = none := List.getElem?_eq_none past

theorem boolOfCode_toNat (b : Bool) : boolOfCode b.toNat = some b := by cases b <;> rfl

section
variable {p : List Byte} {s : State}

theorem carryPortSet_set {port : Port} {nominal : NominalRate} {data : DataRate} {auto : Bool}
    (first : portOfCode (fieldAt p 0 1) = some port) (second : NominalRate.ofCode (fieldAt p 1 1) = some nominal)
    (third : DataRate.ofCode (fieldAt p 2 1) = some data) (fourth : boolOfCode (fieldAt p 3 1) = some auto) :
    State.carryPortSet p s =
      ((s.setPort port { s.port port with nominal := nominal, dataRate := data, autoRecovery := auto }).restart
        port).done [] := by
  unfold State.carryPortSet
  rw [first, second, third, fourth]

theorem carryPortSet_bad (h : portOfCode (fieldAt p 0 1) = none ∨ NominalRate.ofCode (fieldAt p 1 1) = none
    ∨ DataRate.ofCode (fieldAt p 2 1) = none ∨ boolOfCode (fieldAt p 3 1) = none) :
    State.carryPortSet p s = s.refused .badValue := by
  unfold State.carryPortSet
  split
  · next first second third fourth =>
    rw [first, second, third, fourth] at h
    simp at h
  · rfl

theorem carryPortRestart_port {port : Port} (code : fieldAt p 0 1 = portCode port) : State.carryPortRestart p s =
    if (s.port port).conf = .off then (s.restart port).done [] else s.refused .order := by
  unfold State.carryPortRestart
  rw [code, portOfCode_code]

theorem carryPortRestart_past (past : 4 < fieldAt p 0 1) : State.carryPortRestart p s = s.refused .badValue := by
  unfold State.carryPortRestart
  rw [portOfCode_past past]

end

theorem dataFieldRate_flexible {u : PortUnit} {f : CanFrame} (fast : f.fd = true ∧ f.brs = true) :
    u.dataFieldRate f = .inr u.dataRate := by
  unfold PortUnit.dataFieldRate
  rw [fast.1, fast.2]
  rfl

theorem dataFieldRate_nominal {u : PortUnit} {f : CanFrame} (slow : f.fd = false ∨ f.brs = false) :
    u.dataFieldRate f = .inl u.nominal := by
  refine if_neg fun fast => ?_
  obtain ⟨fd, brs⟩ := Bool.and_eq_true_iff.mp fast
  obtain no | no := slow
  · rw [fd] at no
    cases no
  · rw [brs] at no
    cases no

/-- Settles O45, by the settings read from the parameters and by what a restart does beside the port. -/
theorem portsSetAndRestarted : Obligations.PortsSetAndRestarted := by
  unfold Obligations.PortsSetAndRestarted
  refine ⟨fun s t frame rest asked => ?portSet, fun s t frame rest asked => ?portRestart, restart_port,
    fun s p => restart_quiet s, fun s p segment carries => ?segment,
    fun u f => ⟨dataFieldRate_flexible, dataFieldRate_nominal⟩⟩
  case portSet =>
    refine ⟨fun p nominal data auto port second third fourth => ?set, fun bad => ?bad⟩
    case set =>
      have carried := carryPortSet_set (s := Taken s t rest) (port ▸ portOfCode_code p) second third
        (fourth ▸ boolOfCode_toNat auto)
      rw [exec_portSet s t asked.running, takeRequest_asked t asked, carried]
      rfl
    case bad =>
      refine exec_asked (exec_portSet s t asked.running) asked (carryPortSet_bad ?_) rfl
      exact bad.imp portOfCode_past (Or.imp List.getElem?_eq_none (Or.imp List.getElem?_eq_none List.getElem?_eq_none))
  case portRestart =>
    refine ⟨fun p port off => ?off, fun p port on => ?on, fun past => ?past⟩
    case off =>
      have silent : ((Taken s t rest).port p).conf.carries = false := by
        show (s.port p).conf.carries = false
        rw [off]
        rfl
      exact exec_asked (exec_portRestart s t asked.running) asked
        ((carryPortRestart_port port).trans (if_pos (show ((Taken s t rest).port p).conf = .off from off)))
        ((Taken s t rest).restart_offers silent)
    case on =>
      exact exec_asked (exec_portRestart s t asked.running) asked
        ((carryPortRestart_port port).trans (if_neg (show ((Taken s t rest).port p).conf ≠ .off from on))) rfl
    case past => exact exec_asked (exec_portRestart s t asked.running) asked (carryPortRestart_past past) rfl
  case segment =>
    have restarted := restart_segment s segment carries
    rw [emptyQueue_eq] at restarted
    exact restarted

end Sys2Proof.Proofs
end

section
/-! The requests about routes and targets (C2, C8): what an entry's parameters spell, what writes and reads of it answer: O46, O47 and
O48 (R20 to R24, R141, R148, R149). -/

namespace Sys2Proof.Proofs
open Sys2Proof.Machine

/-! ## Parameters that spell an entry (R20 to R22, R148) -/

/-- A code read from a list of distinct values stands for the value at its place. -/
theorem ofCode_iff {α : Type} {l : List α} {code : α → Nat} (distinct : l.Nodup) (coded : ∀ x, l[code x]? = some x)
    {n : Nat} {x : α} : l[n]? = some x ↔ n = code x := by
  constructor
  · intro found
    have size : n < l.length := (List.getElem?_eq_some_iff.mp found).1
    exact (List.getElem?_inj size distinct).mp (found.trans (coded x).symm)
  · rintro rfl
    exact coded x

theorem formatOfCode_iff {n : Nat} {f : IdFormat} : formatOfCode n = some f ↔ n = formatCode f :=
  ofCode_iff (by decide) fun f => by cases f <;> rfl

theorem routeClassOfCode_iff {n : Nat} {c : RouteClass} : RouteClass.ofCode n = some c ↔ n = c.code :=
  ofCode_iff (by decide) fun c => by cases c <;> rfl

theorem segmentOfCode_iff {n : Nat} {g : Segment} : Segment.ofCode n = some g ↔ n = g.code :=
  ofCode_iff (by decide) fun g => by cases g <;> rfl

theorem boolOfCode_iff {n : Nat} {b : Bool} : boolOfCode n = some b ↔ n = b.toNat :=
  ofCode_iff (by decide) fun b => by cases b <;> rfl

/-- A number is that of a word when it fits and the word is made from it. -/
theorem eq_toNat_iff {w v : Nat} {x : BitVec w} : v = x.toNat ↔ v < 2 ^ w ∧ BitVec.ofNat w v = x := by
  constructor
  · rintro rfl
    exact ⟨x.isLt, by rw [BitVec.ofNat_toNat, BitVec.setWidth_eq]⟩
  · rintro ⟨fits, rfl⟩
    rw [BitVec.toNat_ofNat, Nat.mod_eq_of_lt fits]

/-- A number in the range of an identifier format, and the identifier value made from it (R20). -/
theorem idInRange_iff {f : IdFormat} {v : Nat} {x : BitVec 29} :
    (v = x.toNat ∧ (f = .base → x.toNat ≤ 0x7FF)) ↔ idInRange f v = true ∧ BitVec.ofNat 29 v = x := by
  rw [eq_toNat_iff]
  cases f with
  | base =>
    rw [idInRange, decide_eq_true_iff]
    constructor
    · rintro ⟨⟨fits, rfl⟩, base⟩
      have small := base rfl
      rw [BitVec.toNat_ofNat, Nat.mod_eq_of_lt fits] at small
      exact ⟨small, rfl⟩
    · rintro ⟨small, rfl⟩
      have fits : v < 2 ^ 29 := by omega
      refine ⟨⟨fits, rfl⟩, fun _ => ?_⟩
      rwa [BitVec.toNat_ofNat, Nat.mod_eq_of_lt fits]
  | extended =>
    rw [idInRange, decide_eq_true_iff]
    constructor
    · rintro ⟨⟨fits, made⟩, _⟩
      exact ⟨by omega, made⟩
    · rintro ⟨small, made⟩
      exact ⟨⟨by omega, made⟩, fun base => nomatch base⟩

section
variable {p : List Byte}

theorem routeEntryOf_iff (valid : fieldAt p 1 1 = 1) (e : RouteEntry) : routeEntryOf p = some e ↔ SpellsRoute p e := by
  constructor
  · intro made
    unfold routeEntryOf at made
    split at made
    · next f c format cls =>
      split at made
      · next fits =>
        simp only [Bool.and_eq_true, decide_eq_true_eq] at fits
        obtain ⟨⟨⟨value, mask⟩, ingress⟩, egress⟩ := fits
        cases made
        exact ⟨⟨valid, rfl⟩, formatOfCode_iff.mp format, idInRange_iff.mpr ⟨value, rfl⟩, idInRange_iff.mpr ⟨mask, rfl⟩,
          eq_toNat_iff.mpr ⟨ingress, rfl⟩, eq_toNat_iff.mpr ⟨egress, rfl⟩, routeClassOfCode_iff.mp cls, rfl⟩
      · cases made
    · cases made
  · rintro ⟨⟨_, state⟩, format, matchValue, matchMask, ingress, egress, cls, fresh⟩
    obtain ⟨value, valueMade⟩ := idInRange_iff.mp matchValue
    obtain ⟨mask, maskMade⟩ := idInRange_iff.mp matchMask
    obtain ⟨inFits, inMade⟩ := eq_toNat_iff.mp ingress
    obtain ⟨outFits, outMade⟩ := eq_toNat_iff.mp egress
    unfold routeEntryOf
    rw [formatOfCode_iff.mpr format, routeClassOfCode_iff.mpr cls]
    dsimp only
    rw [if_pos (by simp only [Bool.and_eq_true, decide_eq_true_eq]; exact ⟨⟨⟨value, mask⟩, inFits⟩, outFits⟩), valueMade,
      maskMade, inMade, outMade, ← state, ← fresh]

theorem idParam_iff {k : Nat} {i : CanId} : idParam p k = some i ↔ SpellsId p k i := by
  unfold SpellsId
  rw [idInRange_iff, ← formatOfCode_iff]
  unfold idParam
  obtain ⟨format, value⟩ := i
  cases formatOfCode (fieldAt p k 1) with
  | none => exact iff_of_false nofun fun spelled => nomatch spelled.1
  | some f =>
    by_cases range : idInRange f (fieldAt p (k + 1) 4) = true
    · dsimp only
      rw [if_pos range, Option.some_inj, Option.some_inj, CanId.mk.injEq]
      refine and_congr_right ?_
      rintro rfl
      exact (and_iff_right range).symm
    · dsimp only
      rw [if_neg range]
      refine iff_of_false nofun ?_
      rintro ⟨same, fits, _⟩
      cases same
      exact range fits

theorem guardParam_none_iff {k : Nat} : guardParam p k = some none ↔ fieldAt p k 1 = 0 := by
  have absent : fieldAt p k 1 = 0 ↔ boolOfCode (fieldAt p k 1) = some false := (boolOfCode_iff (b := false)).symm
  rw [absent]
  unfold guardParam
  split
  · next past => rw [past]; simp
  · next code => rw [code]; simp
  · next code => rw [code]; split_ifs <;> simp

theorem guardParam_some_iff {k : Nat} {w : AddrWindow} : guardParam p k = some (some w) ↔
    fieldAt p k 1 = 1 ∧ fieldAt p (k + 1) 4 = w.base ∧ fieldAt p (k + 5) 1 = w.sizeCode
      ∧ w.sizeCode ≤ 15 ∧ w.base % windowSize w.sizeCode = 0 := by
  have present : fieldAt p k 1 = 1 ↔ boolOfCode (fieldAt p k 1) = some true := (boolOfCode_iff (b := true)).symm
  rw [present]
  unfold guardParam
  split
  · next past => rw [past]; simp
  · next code => rw [code]; simp
  · next code =>
    rw [code]
    split_ifs with fits
    · simp only [Bool.and_eq_true, decide_eq_true_eq, aligned, beq_iff_eq] at fits
      constructor
      · intro made
        cases made
        exact ⟨rfl, rfl, rfl, fits⟩
      · rintro ⟨_, base, size, _⟩
        rw [base, size]
    · refine iff_of_false nofun ?_
      rintro ⟨_, base, size, small, whole⟩
      rw [base, size] at fits
      simp only [Bool.and_eq_true, decide_eq_true_eq, aligned, beq_iff_eq] at fits
      exact fits ⟨small, whole⟩

theorem guardParam_iff {k : Nat} {g : Option AddrWindow} : guardParam p k = some g ↔ SpellsGuard p k g := by
  cases g with
  | none => exact guardParam_none_iff
  | some w => exact guardParam_some_iff

theorem targetEntryOf_iff (valid : fieldAt p 1 1 = 1) (e : TargetEntry) :
    targetEntryOf p = some e ↔ SpellsTarget p e := by
  constructor
  · intro made
    unfold targetEntryOf at made
    split at made
    · next g request response guard0 guard1 segment first second third fourth =>
      cases made
      exact ⟨⟨valid, rfl⟩, segmentOfCode_iff.mp segment, idParam_iff.mp first, idParam_iff.mp second,
        guardParam_iff.mp third, guardParam_iff.mp fourth, rfl, rfl⟩
    · cases made
  · rintro ⟨⟨_, state⟩, segment, request, response, guard0, guard1, sound, fresh⟩
    unfold targetEntryOf
    rw [segmentOfCode_iff.mpr segment, idParam_iff.mpr request, idParam_iff.mpr response, guardParam_iff.mpr guard0,
      guardParam_iff.mpr guard1]
    dsimp only
    rw [← state, ← sound, ← fresh]

theorem routeWritten_empty (empty : fieldAt p 1 1 = 0) : routeWritten p = some RouteEntry.reset := by
  unfold routeWritten
  rw [empty]
  rfl

theorem routeWritten_valid {e : RouteEntry} (spelled : SpellsRoute p e) : routeWritten p = some e := by
  unfold routeWritten
  rw [spelled.state.1]
  exact (routeEntryOf_iff spelled.state.1 e).mpr spelled

theorem routeWritten_none (h : 1 < fieldAt p 1 1 ∨ fieldAt p 1 1 = 1 ∧ ∀ e, ¬ SpellsRoute p e) :
    routeWritten p = none := by
  unfold routeWritten
  obtain past | ⟨valid, none⟩ := h
  · split
    · next zero => omega
    · next one => omega
    · rfl
  · rw [valid]
    exact Option.eq_none_iff_forall_ne_some.mpr fun e made => none e ((routeEntryOf_iff valid e).mp made)

theorem targetWritten_empty (empty : fieldAt p 1 1 = 0) : targetWritten p = some TargetEntry.reset := by
  unfold targetWritten
  rw [empty]
  rfl

theorem targetWritten_valid {e : TargetEntry} (spelled : SpellsTarget p e) : targetWritten p = some e := by
  unfold targetWritten
  rw [spelled.state.1]
  exact (targetEntryOf_iff spelled.state.1 e).mpr spelled

theorem targetWritten_none (h : 1 < fieldAt p 1 1 ∨ fieldAt p 1 1 = 1 ∧ ∀ e, ¬ SpellsTarget p e) :
    targetWritten p = none := by
  unfold targetWritten
  obtain past | ⟨valid, none⟩ := h
  · split
    · next zero => omega
    · next one => omega
    · rfl
  · rw [valid]
    exact Option.eq_none_iff_forall_ne_some.mpr fun e made => none e ((targetEntryOf_iff valid e).mp made)

/-! ## Routes (R141, R148, R149) -/

section
variable {s : State}

theorem carryRouteWrite_written {n : RouteId} {e : RouteEntry} (number : fieldAt p 0 1 = n.val)
    (written : routeWritten p = some e) : State.carryRouteWrite p s = (s.setRoute n e).done [] := by
  unfold State.carryRouteWrite
  rw [below_val number, written]

theorem carryRouteWrite_bad (h : 95 < fieldAt p 0 1 ∨ routeWritten p = none) :
    State.carryRouteWrite p s = s.refused .badValue := by
  unfold State.carryRouteWrite
  obtain past | none := h
  · rw [below_none past]
  · rw [none]
    cases below 96 (fieldAt p 0 1) <;> rfl

theorem carryRouteRead_damaged {n : RouteId} (number : fieldAt p 0 1 = n.val) (valid : (s.route n).state = .valid)
    (bad : (s.route n).parityBad = true) : State.carryRouteRead p s =
      ((s.setRoute n { s.route n with state := .damaged }).raiseFault .route).done
        ({ s.route n with state := .damaged } : RouteEntry).fields := by
  unfold State.carryRouteRead
  rw [below_val number]
  exact if_pos ⟨valid, bad⟩

theorem carryRouteRead_kept {n : RouteId} (number : fieldAt p 0 1 = n.val)
    (sound : ¬ ((s.route n).state = .valid ∧ (s.route n).parityBad = true)) :
    State.carryRouteRead p s = s.done (s.route n).fields := by
  unfold State.carryRouteRead
  rw [below_val number]
  exact if_neg sound

theorem carryRouteRead_past (past : 95 < fieldAt p 0 1) : State.carryRouteRead p s = s.refused .badValue := by
  unfold State.carryRouteRead
  rw [below_none past]

theorem carryRoutingEnable_action {d : DefaultAction} (action : DefaultAction.ofCode (fieldAt p 0 1) = some d) :
    State.carryRoutingEnable p s = ({ s with mode := .routing, defaultAction := d }).done (b1 s.mode.code) := by
  unfold State.carryRoutingEnable
  rw [action]

theorem carryRoutingEnable_past (past : 1 < fieldAt p 0 1) :
    State.carryRoutingEnable p s = s.refused .badValue := by
  have none : DefaultAction.ofCode (fieldAt p 0 1) = none := List.getElem?_eq_none past
  unfold State.carryRoutingEnable
  rw [none]

end

end

theorem routeFields_eq (e : RouteEntry) : e.fields =
    b1 e.state.code ++ b1 (formatCode e.format) ++ be 4 e.matchValue.toNat ++ be 4 e.matchMask.toNat
      ++ b1 e.ingress.toNat ++ b1 e.egress.toNat ++ b1 e.cls.code ++ b1 (if e.state = .damaged then 1 else 0) := by
  unfold RouteEntry.fields
  cases e.state <;> rfl

theorem defaultActionOfCode {n : Nat} (known : n ≤ 1) :
    DefaultAction.ofCode n = some (if n = 0 then .flood else .drop) := by
  interval_cases n <;> rfl

/-- Settles O46, by what the parameters of ROUTE WRITE spell and the state of the entry ROUTE READ finds. -/
theorem routesWrittenReadAndEnabled : Obligations.RoutesWrittenReadAndEnabled := by
  unfold Obligations.RoutesWrittenReadAndEnabled
  intro s t frame rest p u report
  refine ⟨fun n asked number empty => ?empty, fun n e asked number spelled => ?valid, fun asked bad => ?bad,
    fun n asked number sound => ?kept, fun n asked number valid bad => ?damaged, fun asked past => ?readPast,
    fun asked known => ?enable, fun asked past => ?enablePast⟩
  case empty =>
    exact exec_asked (exec_routeWrite s t asked.running) asked
      (carryRouteWrite_written number (routeWritten_empty empty)) rfl
  case valid =>
    exact exec_asked (exec_routeWrite s t asked.running) asked
      (carryRouteWrite_written number (routeWritten_valid spelled)) rfl
  case bad =>
    exact exec_asked (exec_routeWrite s t asked.running) asked (carryRouteWrite_bad (bad.imp_right routeWritten_none)) rfl
  case kept =>
    refine (exec_asked (exec_routeRead s t asked.running) asked (carryRouteRead_kept (s := u) number sound) rfl).trans ?_
    rw [done_bytes, routeFields_eq]
    rfl
  case damaged =>
    refine (exec_asked (exec_routeRead s t asked.running) asked (carryRouteRead_damaged (s := u) number valid bad)
      ((State.raiseFault_offers _ .route).trans rfl)).trans ?_
    rw [done_bytes, routeFields_eq]
    rfl
  case readPast => exact exec_asked (exec_routeRead s t asked.running) asked (carryRouteRead_past past) rfl
  case enable =>
    exact exec_asked (exec_routingEnable s t asked.running) asked
      (carryRoutingEnable_action (defaultActionOfCode known)) rfl
  case enablePast =>
    exact exec_asked (exec_routingEnable s t asked.running) asked (carryRoutingEnable_past past) rfl

end Sys2Proof.Proofs
end

section
/-! TARGET WRITE and TARGET READ (C2): O47 and O48 (R20, R22 to R24). -/

namespace Sys2Proof.Proofs
open Sys2Proof.Machine

/-! ## Writes (R22) -/

section
variable {p : List Byte} {s : State} {n : TargetId} {e : TargetEntry}

theorem carryTargetWrite_written (number : fieldAt p 0 1 = n.val) (written : targetWritten p = some e) :
    State.carryTargetWrite p s = s.writeTarget n e := by
  unfold State.carryTargetWrite
  rw [below_val number, written]

theorem carryTargetWrite_bad (h : 31 < fieldAt p 0 1 ∨ targetWritten p = none) :
    State.carryTargetWrite p s = s.refused .badValue := by
  unfold State.carryTargetWrite
  obtain past | none := h
  · rw [below_none past]
  · rw [none]
    cases below 32 (fieldAt p 0 1) <;> rfl

theorem writeTarget_bound {f : FlowId} (bound : s.boundFlow n = some f) : s.writeTarget n e = s.refused .busy := by
  unfold State.writeTarget
  rw [bound]
  rfl

variable (free : s.boundFlow n = none)
include free

theorem writeTarget_empty (empty : e.state ≠ .valid) : s.writeTarget n e = (s.setTarget n e).done [] := by
  unfold State.writeTarget
  rw [free]
  exact if_neg empty

variable (valid : e.state = .valid)
include valid

theorem writeTarget_valid : s.writeTarget n e =
    if (s.otherTargets n).any (·.parityBad)
        || (s.raiseIf ((s.otherTargets n).any (·.parityBad)) .target).duplicate n e then
      (s.raiseIf ((s.otherTargets n).any (·.parityBad)) .target).refused .duplicate
    else ((s.raiseIf ((s.otherTargets n).any (·.parityBad)) .target).setTarget n e).done [] := by
  unfold State.writeTarget
  rw [free, if_neg (by decide), if_pos valid]

theorem writeTarget_damaged (bad : (s.otherTargets n).any (·.parityBad) = true) :
    s.writeTarget n e = (s.raiseFault .target).refused .duplicate := by
  rw [writeTarget_valid free valid, bad]
  rfl

variable (sound : (s.otherTargets n).any (·.parityBad) = false)
include sound

theorem writeTarget_duplicate (twice : s.duplicate n e = true) : s.writeTarget n e = s.refused .duplicate := by
  rw [writeTarget_valid free valid, sound]
  exact if_pos twice

theorem writeTarget_distinct (once : s.duplicate n e = false) : s.writeTarget n e = (s.setTarget n e).done [] := by
  rw [writeTarget_valid free valid, sound]
  exact if_neg (Bool.eq_false_iff.mp once)

end

theorem otherTargets_bad_iff (s : State) (n : TargetId) : (s.otherTargets n).any (·.parityBad) = true ↔
    ∃ m, (m ≠ n ∧ (s.target m).state = .valid) ∧ (s.target m).parityBad = true := by
  simp only [List.any_eq_true, mem_otherTargets]
  constructor
  · rintro ⟨e, ⟨m, other, valid, rfl⟩, bad⟩
    exact ⟨m, ⟨other, valid⟩, bad⟩
  · rintro ⟨m, ⟨other, valid⟩, bad⟩
    exact ⟨_, ⟨m, other, valid, rfl⟩, bad⟩

theorem otherTargets_sound_iff (s : State) (n : TargetId) : (s.otherTargets n).any (·.parityBad) = false ↔
    ∀ m, m ≠ n ∧ (s.target m).state = .valid → (s.target m).parityBad = false := by
  rw [← Bool.not_eq_true, otherTargets_bad_iff]
  simp only [not_exists, not_and, Bool.not_eq_true]

theorem mem_takenIds_iff (s : State) (n : TargetId) (i : CanId) : i ∈ s.takenIds n ↔
    i ∈ managementIds s.strap
      ∨ ∃ m, (m ≠ n ∧ (s.target m).state = .valid) ∧ (i = (s.target m).request ∨ i = (s.target m).response) := by
  unfold State.takenIds
  rw [List.mem_append, List.mem_flatMap]
  refine or_congr_right ⟨?_, ?_⟩
  · rintro ⟨e, other, same⟩
    obtain ⟨m, apart, valid, rfl⟩ := (mem_otherTargets s n e).mp other
    exact ⟨m, ⟨apart, valid⟩, by simpa using same⟩
  · rintro ⟨m, ⟨apart, valid⟩, same⟩
    exact ⟨s.target m, (mem_otherTargets s n _).mpr ⟨m, apart, valid, rfl⟩, by simpa using same⟩

theorem duplicate_iff (s : State) (n : TargetId) (e : TargetEntry) : s.duplicate n e = true ↔
    e.request = e.response ∨ e.request ∈ s.takenIds n ∨ e.response ∈ s.takenIds n := by
  unfold State.duplicate
  rw [Bool.or_eq_true, Bool.or_eq_true, beq_iff_eq, List.contains_iff_mem, List.contains_iff_mem, or_assoc]

/-- Settles O47, by what the parameters spell, the flow bound to the target and the identifiers that are taken. -/
theorem targetsWritten : Obligations.TargetsWritten := by
  unfold Obligations.TargetsWritten
  intro s t frame rest asked p u other taken
  have answers {v : State} {a : Answer} (carried : State.carryTargetWrite p u = (v, a)) (offers : v.offers = s.offers) :=
    exec_asked (exec_targetWrite s t asked.running) asked carried offers
  have free {n : TargetId} (unbound : Unbound s n) : u.boundFlow n = none := (boundFlow_none u).mpr unbound
  have duplicates (n : TargetId) (e : TargetEntry) : u.duplicate n e = true ↔
      e.request = e.response ∨ taken n e.request ∨ taken n e.response := by
    rw [duplicate_iff, mem_takenIds_iff, mem_takenIds_iff]
    exact Iff.rfl
  refine ⟨fun bad => ?bad, fun n number spelled bound => ?busy, fun n number empty unbound => ?empty,
    fun n e number spelled unbound => ⟨fun damaged => ?damaged, fun sound twice => ?duplicate, fun sound once => ?written⟩⟩
  case bad => exact answers (carryTargetWrite_bad (bad.imp_right targetWritten_none)) rfl
  case busy =>
    obtain ⟨f, bound⟩ := bound
    have named : u.boundFlow n = some f := (boundFlow_congr s rfl n).trans (boundFlow_some s bound)
    obtain empty | ⟨e, spelled⟩ := spelled
    · exact answers ((carryTargetWrite_written number (targetWritten_empty empty)).trans (writeTarget_bound named)) rfl
    · exact answers ((carryTargetWrite_written number (targetWritten_valid spelled)).trans (writeTarget_bound named)) rfl
  case empty =>
    exact answers ((carryTargetWrite_written number (targetWritten_empty empty)).trans
      (writeTarget_empty (free unbound) nofun)) rfl
  case damaged =>
    exact answers ((carryTargetWrite_written number (targetWritten_valid spelled)).trans
      (writeTarget_damaged (free unbound) spelled.state.2 ((otherTargets_bad_iff u n).mpr damaged)))
      (u.raiseFault_offers .target)
  case duplicate =>
    exact answers ((carryTargetWrite_written number (targetWritten_valid spelled)).trans
      (writeTarget_duplicate (free unbound) spelled.state.2 ((otherTargets_sound_iff u n).mpr sound)
        ((duplicates n e).mpr twice))) rfl
  case written =>
    exact answers ((carryTargetWrite_written number (targetWritten_valid spelled)).trans
      (writeTarget_distinct (free unbound) spelled.state.2 ((otherTargets_sound_iff u n).mpr sound)
        (Bool.eq_false_of_not_eq_true fun twice => once ((duplicates n e).mp twice)))) rfl

/-! ## Reads (R23, R24) -/

theorem guardReport_guardFields (seed : Nat) (g : Option AddrWindow) : GuardReport (guardFields seed g) g := by
  cases g with
  | none => exact ⟨rfl, rfl⟩
  | some w => exact rfl

theorem targetReadBad_iff (e : TargetEntry) : e.readBad = true ↔ e.state = .valid ∧ e.parityBad = true := by
  unfold TargetEntry.readBad
  rw [Bool.and_eq_true, beq_iff_eq]

section
variable {p : List Byte} {s : State} {n : TargetId}

theorem carryTargetRead_past (past : 31 < fieldAt p 0 1) : State.carryTargetRead p s = s.refused .badValue := by
  unfold State.carryTargetRead
  rw [below_none past]

theorem carryTargetRead_entry (number : fieldAt p 0 1 = n.val) : State.carryTargetRead p s =
    (({ s with freeCount := s.freeCount + 10 } : State).raiseIf (s.target n).readBad .target).done
      ((s.target n).fields s.freeCount ++ b1 ((s.boundFlow n).elim 0xFF Fin.val) ++ b1 (s.target n).tracker.code
        ++ bBool (s.target n).readBad) := by
  unfold State.carryTargetRead
  rw [below_val number]

end

/-- Settles O48, by the bound flow and the parity of the entry. -/
theorem targetsRead : Obligations.TargetsRead := by
  unfold Obligations.TargetsRead
  intro s t frame rest asked number
  refine ⟨fun past => exec_asked (exec_targetRead s t asked.running) asked (carryTargetRead_past past) rfl,
    fun n named => ?entry⟩
  intro e bad id
  refine ⟨s.freeCount + 10, guardFields s.freeCount e.guard0, guardFields (s.freeCount + 5) e.guard1,
    guardReport_guardFields _ _, guardReport_guardFields _ _, ?_⟩
  intro u fields
  have answered {b : Nat} (bound : (s.boundFlow n).elim 0xFF Fin.val = b) : exec (.targetRead t) s =
      .next (Answered (u.raiseIf e.readBad .target) frame (doneBytes (fields b e.readBad.toNat))) := by
    subst bound
    exact exec_asked (exec_targetRead s t asked.running) asked (carryTargetRead_entry (s := Taken s t rest) named)
      (u.raiseIf_offers e.readBad .target)
  have sound {b : Nat} (bound : (s.boundFlow n).elim 0xFF Fin.val = b) (good : ¬ bad) :
      exec (.targetRead t) s = .next (Answered u frame (doneBytes (fields b 0))) := by
    have read := answered bound
    rw [Bool.eq_false_of_not_eq_true fun h => good ((targetReadBad_iff e).mp h)] at read
    exact read
  have damaged {b : Nat} (bound : (s.boundFlow n).elim 0xFF Fin.val = b) (h : bad) :
      exec (.targetRead t) s = .next (Answered (u.raiseFault .target) frame (doneBytes (fields b 1))) := by
    have read := answered bound
    rw [(targetReadBad_iff e).mpr h] at read
    exact read
  have flow {f : FlowId} (bound : BoundTo s f n) : (s.boundFlow n).elim 0xFF Fin.val = f.val := by
    rw [boundFlow_some s bound, Option.elim_some]
  have none (unbound : Unbound s n) : (s.boundFlow n).elim 0xFF Fin.val = 0xFF := by
    rw [(boundFlow_none s).mpr unbound, Option.elim_none]
  exact ⟨fun f bound => sound (flow bound), fun f bound => damaged (flow bound), fun unbound => sound (none unbound),
    fun unbound => damaged (none unbound)⟩

end Sys2Proof.Proofs
end

section
/-! IMAGE BEGIN and IMAGE DISCARD (C2): O49 (R27, R28, R34, R37, R113). -/

namespace Sys2Proof.Proofs
open Sys2Proof.Machine

/-! ## What a loading request finds (R28 to R31, R37) -/

section
variable {s : State} {i : ImageId} {k : ImageState} {go : State → State × Answer}

theorem loadRequest_damaged (bad : LoadFieldsDamaged (s.image i)) :
    s.loadRequest i k go = (s.raiseFault .image).refused .order :=
  if_pos ((ImageRecord.loadReadBad_iff _).mpr bad)

variable (sound : ¬ LoadFieldsDamaged (s.image i))
include sound

theorem loadRequest_referenced (named : (s.image i).refCount ≠ 0) : s.loadRequest i k go = s.refused .busy := by
  unfold State.loadRequest
  rw [if_neg fun bad => sound ((ImageRecord.loadReadBad_iff _).mp bad), if_pos named]

variable (free : (s.image i).refCount = 0)
include free

theorem loadRequest_order (other : (s.image i).state ≠ k) : s.loadRequest i k go = s.refused .order := by
  unfold State.loadRequest
  rw [if_neg fun bad => sound ((ImageRecord.loadReadBad_iff _).mp bad), if_neg (not_not_intro free), if_pos other]

theorem loadRequest_taken (state : (s.image i).state = k) : s.loadRequest i k go = go s := by
  unfold State.loadRequest
  rw [if_neg fun bad => sound ((ImageRecord.loadReadBad_iff _).mp bad), if_neg (not_not_intro free), if_neg (not_not_intro state)]

end

/-! ## IMAGE BEGIN (R28) -/

section
variable {p : List Byte} {s : State} {i : ImageId}

/-- The legal numbers of regions and of block checks (R28). -/
theorem imageBegin_illegal_iff (regions count : Nat) : (regions = 0 ∨ 8 < regions ∨ count = 0 ∨ checkListSize < count) ↔
    ¬ (1 ≤ regions ∧ regions ≤ 8 ∧ 1 ≤ count ∧ count ≤ 4096) := by
  have size : checkListSize = 4096 := rfl
  omega

theorem carryImageBegin_bad (h : 15 < fieldAt p 0 1
      ∨ ¬ (1 ≤ fieldAt p 5 1 ∧ fieldAt p 5 1 ≤ 8 ∧ 1 ≤ fieldAt p 6 2 ∧ fieldAt p 6 2 ≤ 4096)) :
    State.carryImageBegin p s = s.refused .badValue := by
  unfold State.carryImageBegin
  dsimp only
  obtain past | illegal := h
  · rw [below_none past]
  · cases below 16 (fieldAt p 0 1) with
    | none => rfl
    | some i => exact if_pos ((imageBegin_illegal_iff _ _).mpr illegal)

theorem carryImageBegin_legal (number : fieldAt p 0 1 = i.val)
    (legal : 1 ≤ fieldAt p 5 1 ∧ fieldAt p 5 1 ≤ 8 ∧ 1 ≤ fieldAt p 6 2 ∧ fieldAt p 6 2 ≤ 4096) :
    State.carryImageBegin p s = s.loadRequest i .empty
      (State.beginImage i (BitVec.ofNat 32 (fieldAt p 1 4)) (fieldAt p 5 1) (fieldAt p 6 2)) := by
  unfold State.carryImageBegin
  dsimp only
  rw [below_val number]
  exact if_neg fun illegal => (imageBegin_illegal_iff _ _).mp illegal legal

variable {tag : Word} {regions count : Nat}

theorem beginImage_full (full : firstFit count 0 s.extents = none) :
    State.beginImage i tag regions count s = s.refused .noRoom := by
  unfold State.beginImage
  rw [full]

theorem beginImage_room {first : Nat} (room : firstFit count 0 s.extents = some first) :
    State.beginImage i tag regions count s =
      ({ s with
        extents := insertExtent ⟨i, first, count⟩ s.extents
        images := s.images.set i ((s.image i).begun tag regions first count) } : State).done (be 2 first) := by
  unfold State.beginImage
  rw [room]
  rfl

end

/-! ## IMAGE DISCARD (R34, R37, R113) -/

section
variable (s : State) (i : ImageId)

theorem abandonImageSlice_eq : s.abandonImageSlice i =
    { s with
      engine := s.engine.map fun x =>
        match x.work with
        | .image j _ _ _ => if j = i then { x with abandoned := true } else x
        | .flow _ _ _ => x } := by
  unfold State.abandonImageSlice
  have still {e : Option Slice} (engine : s.engine = e) : s = { s with engine := e } :=
    congrArg (fun e => ({ s with engine := e } : State)) engine
  cases engine : s.engine with
  | none => exact still engine
  | some x =>
    obtain ⟨work, abandoned⟩ := x
    cases work with
    | flow f c r => exact still engine
    | image j b n e =>
      rw [Option.map_some]
      dsimp only
      by_cases same : j = i
      · rw [if_pos same, if_pos same]
      · rw [if_neg same, if_neg same]
        exact still engine

theorem raiseFault_extents (k : FaultFlag) : (s.raiseFault k).extents = s.extents := by
  unfold State.raiseFault
  split <;> rfl

theorem raiseFault_images (k : FaultFlag) : (s.raiseFault k).images = s.images := by
  unfold State.raiseFault
  split <;> rfl

theorem abandonImageSlice_extents : (s.abandonImageSlice i).extents = s.extents := by
  rw [abandonImageSlice_eq]

theorem abandonImageSlice_images : (s.abandonImageSlice i).images = s.images := by
  rw [abandonImageSlice_eq]

theorem discard_eq : s.discard i =
    { s.abandonImageSlice i with
      extents := s.extents.filter fun e => e.image ≠ i
      images := s.images.set i ImageRecord.reset } := by
  have others : s.extents.filter (fun e => e.image != i) = s.extents.filter fun e => e.image ≠ i :=
    List.filter_congr fun e _ => by rw [Bool.eq_iff_iff, bne_iff_ne, decide_eq_true_iff]
  unfold State.discard
  dsimp only
  rw [abandonImageSlice_extents, others]
  unfold State.setImage
  rw [abandonImageSlice_images]

variable {s i} {p : List Byte}

theorem carryImageDiscard_past (past : 15 < fieldAt p 0 1) : State.carryImageDiscard p s = s.refused .badValue := by
  unfold State.carryImageDiscard
  rw [below_none past]

variable (number : fieldAt p 0 1 = i.val)
include number

theorem carryImageDiscard_image : State.carryImageDiscard p s =
    if s.references i ≠ 0 then (s.raiseIf ((s.image i).bad.contains .refCount) .image).refused .busy
    else ((s.raiseIf ((s.image i).bad.contains .refCount) .image).discard i).done [] := by
  unfold State.carryImageDiscard
  rw [below_val number]

/-- With a sound reference count that count decides. -/
theorem carryImageDiscard_sound (sound : ImageField.refCount ∉ (s.image i).bad) : State.carryImageDiscard p s =
    if (s.image i).refCount ≠ 0 then s.refused .busy else (s.discard i).done [] := by
  have good : (s.image i).bad.contains .refCount = false := by simpa using sound
  rw [carryImageDiscard_image number, State.references, good]
  rfl

/-- With a damaged one the flows that name the image do (R37). -/
theorem carryImageDiscard_damaged (damaged : ImageField.refCount ∈ (s.image i).bad) : State.carryImageDiscard p s =
    if s.flowsNaming i ≠ 0 then (s.raiseFault .image).refused .busy else ((s.raiseFault .image).discard i).done [] := by
  have bad : (s.image i).bad.contains .refCount = true := by simpa using damaged
  rw [carryImageDiscard_image number, State.references, bad]
  rfl

end

/-- Settles O49, by what the requests find of the image, and the search for a free extent. -/
theorem imagesBegunAndDiscarded : Obligations.ImagesBegunAndDiscarded := by
  unfold Obligations.ImagesBegunAndDiscarded
  refine ⟨fun s t frame rest asked => ?begin_, fun l count ordered _ => ⟨fun k found => ?fits, fun none k => ?nowhere⟩,
    fun x before after low high => insertExtent_between x low high, abandonImageSlice_eq,
    fun s t frame rest asked => ?discard⟩
  case begin_ =>
    intro p u regions count legal
    have answers {v : State} {a : Answer} (carried : State.carryImageBegin p u = (v, a)) (offers : v.offers = s.offers) :=
      exec_asked (exec_imageBegin s t asked.running) asked carried offers
    refine ⟨fun bad => answers (carryImageBegin_bad bad) rfl, fun i number lawful => ?_⟩
    have loads := carryImageBegin_legal (s := u) number lawful
    refine ⟨fun bad => ?damaged, fun sound named => ?named, fun sound free other => ?order,
      fun sound free empty full => ?full, fun first sound free empty room => ?room⟩
    case damaged => exact answers (loads.trans (loadRequest_damaged (s := u) bad)) (u.raiseFault_offers .image)
    case named => exact answers (loads.trans (loadRequest_referenced (s := u) sound named)) rfl
    case order => exact answers (loads.trans (loadRequest_order (s := u) sound free other)) rfl
    case full =>
      exact answers (loads.trans ((loadRequest_taken (s := u) sound free empty).trans (beginImage_full full))) rfl
    case room =>
      exact answers (loads.trans ((loadRequest_taken (s := u) sound free empty).trans (beginImage_room room))) rfl
  case fits =>
    obtain ⟨_, fits, lowest⟩ := firstFit_some (ExtentsFrom.zero ordered) found
    exact ⟨fits, fun j before => lowest j (Nat.zero_le j) before⟩
  case nowhere => exact firstFit_none (ExtentsFrom.zero ordered) none k (Nat.zero_le k)
  case discard =>
    intro u number
    have answers {v : State} {a : Answer} (carried : State.carryImageDiscard (params frame) u = (v, a))
        (offers : v.offers = s.offers) := exec_asked (exec_imageDiscard s t asked.running) asked carried offers
    refine ⟨fun past => answers (carryImageDiscard_past past) rfl, fun i same => ?_⟩
    intro naming damaged discarded
    refine ⟨fun sound named => ?named, fun sound free => ?free, fun bad named => ?namedBad, fun bad free => ?freeBad⟩
    case named =>
      exact answers ((carryImageDiscard_sound (s := u) same sound).trans (if_pos named)) rfl
    case free =>
      have done : State.carryImageDiscard (params frame) u = (discarded u).done [] := by
        refine (carryImageDiscard_sound (s := u) same sound).trans ((if_neg (not_not_intro free)).trans ?_)
        rw [discard_eq]
        rfl
      exact answers done (u.abandonImageSlice_offers i)
    case namedBad =>
      exact answers ((carryImageDiscard_damaged (s := u) same bad).trans (if_pos named)) (u.raiseFault_offers .image)
    case freeBad =>
      have done : State.carryImageDiscard (params frame) u = (discarded (u.raiseFault .image)).done [] := by
        refine (carryImageDiscard_damaged (s := u) same bad).trans ((if_neg (not_not_intro free)).trans ?_)
        rw [discard_eq, raiseFault_extents, raiseFault_images]
        rfl
      exact answers done ((State.abandonImageSlice_offers _ i).trans (u.raiseFault_offers .image))

end Sys2Proof.Proofs
end

section
/-! IMAGE REGION and IMAGE CHECKS (C2): what the parameters spell, which regions meet, what the check list holds afterwards: O50 (R26,
R27, R29, R30, R37). -/

namespace Sys2Proof.Proofs
open Sys2Proof.Machine

/-! ## IMAGE REGION (R26, R29) -/

theorem regionOf_iff {p : List Byte} {g : Region} : regionOf p = some g ↔ SpellsRegion p g := by
  have legal_iff (base size length block : Nat) :
      (decide (size ≤ 15) && aligned base size && length != 0 && decide (length ≤ windowSize size)
        && blockLengths.contains block) = true ↔
      size ≤ 15 ∧ base % windowSize size = 0 ∧ 0 < length ∧ length ≤ windowSize size
        ∧ block ∈ [256, 512, 1024, 2048, 4096] := by
    simp only [Bool.and_eq_true, decide_eq_true_eq, aligned, beq_iff_eq, bne_iff_ne, List.contains_iff_mem,
      Nat.pos_iff_ne_zero, blockLengths, and_assoc]
  unfold regionOf
  dsimp only
  constructor
  · intro made
    split at made
    · cases made
    · next erase code =>
      split at made
      · next fits =>
        cases made
        exact ⟨rfl, rfl, rfl, rfl, boolOfCode_iff.mp code, (legal_iff _ _ _ _).mp fits⟩
      · cases made
  · rintro ⟨base, size, length, block, erase, legal⟩
    rw [base, size, length, block, boolOfCode_iff.mpr erase]
    exact if_pos ((legal_iff _ _ _ _).mpr legal)

section
variable {p : List Byte} {s : State} {i : ImageId} {g : Region}

theorem carryImageRegion_bad (h : 15 < fieldAt p 0 1 ∨ ∀ g, ¬ SpellsRegion p g) :
    State.carryImageRegion p s = s.refused .badValue := by
  unfold State.carryImageRegion
  obtain past | none := h
  · rw [below_none past]
  · rw [Option.eq_none_iff_forall_ne_some.mpr fun g made => none g (regionOf_iff.mp made)]
    cases below 16 (fieldAt p 0 1) <;> rfl

theorem carryImageRegion_spelled (number : fieldAt p 0 1 = i.val) (spelled : SpellsRegion p g) :
    State.carryImageRegion p s = s.loadRequest i .loading (State.loadRegion i (fieldAt p 1 1) g) := by
  unfold State.carryImageRegion
  rw [below_val number, regionOf_iff.mpr spelled]

variable {k : SlotId}

/-- The slots of the image besides one, among those in use (R26). -/
theorem mem_otherSlots_iff (r : ImageRecord) (x : Slot) : x ∈ r.otherSlots k ↔
    ∃ j : SlotId, j ≠ k ∧ j.val < r.regionCount.getD 0 ∧ r.slots.get j = x := by
  unfold ImageRecord.otherSlots ImageRecord.usedSlots
  simp only [List.mem_map, List.mem_filter, bne_iff_ne, Prod.exists, List.mem_zipIdx_iff_getElem?, takeSlots_getElem?]
  constructor
  · rintro ⟨y, n, ⟨⟨j, rfl, count, same⟩, other⟩, rfl⟩
    exact ⟨j, fun eq => other (congrArg Fin.val eq), count, same⟩
  · rintro ⟨j, other, count, same⟩
    exact ⟨x, j.val, ⟨⟨j, rfl, count, same⟩, fun eq => other (Fin.ext eq)⟩, rfl⟩

theorem otherSlots_bad_iff (r : ImageRecord) : (r.otherSlots k).any (·.parityBad) = true ↔
    ∃ j : SlotId, j ≠ k ∧ j.val < r.regionCount.getD 0 ∧ (r.slots.get j).parityBad = true := by
  rw [List.any_eq_true]
  constructor
  · rintro ⟨x, mem, bad⟩
    obtain ⟨j, other, count, rfl⟩ := (mem_otherSlots_iff r x).mp mem
    exact ⟨j, other, count, bad⟩
  · rintro ⟨j, other, count, bad⟩
    exact ⟨_, (mem_otherSlots_iff r _).mpr ⟨j, other, count, rfl⟩, bad⟩

theorem slotOverlaps_iff (x : Slot) (g : Region) : x.overlaps g = true ↔
    ∃ q, x.region = some q ∧ g.base < q.base + windowSize q.sizeCode ∧ q.base < g.base + windowSize g.sizeCode := by
  unfold Slot.overlaps
  rw [Option.any_eq_true]
  simp only [Region.windowsOverlap, rangesOverlap, Bool.and_eq_true, decide_eq_true_eq]

theorem otherSlots_overlap_iff (r : ImageRecord) (g : Region) : (r.otherSlots k).any (·.overlaps g) = true ↔
    ∃ j : SlotId, j ≠ k ∧ j.val < r.regionCount.getD 0 ∧ ∃ q, (r.slots.get j).region = some q
      ∧ g.base < q.base + windowSize q.sizeCode ∧ q.base < g.base + windowSize g.sizeCode := by
  rw [List.any_eq_true]
  constructor
  · rintro ⟨x, mem, met⟩
    obtain ⟨j, other, count, rfl⟩ := (mem_otherSlots_iff r x).mp mem
    exact ⟨j, other, count, (slotOverlaps_iff _ g).mp met⟩
  · rintro ⟨j, other, count, met⟩
    exact ⟨_, (mem_otherSlots_iff r _).mpr ⟨j, other, count, rfl⟩, (slotOverlaps_iff _ g).mpr met⟩

theorem loadRegion_past {n : Nat} (past : (s.image i).regionCount.getD 0 ≤ n) :
    State.loadRegion i n g s = s.refused .badValue := by
  unfold State.loadRegion
  cases below 8 n with
  | none => rfl
  | some k => exact if_pos past

variable {n : Nat} (slot : n = k.val) (used : k.val < (s.image i).regionCount.getD 0)
include slot used

theorem loadRegion_slot : State.loadRegion i n g s =
    if ((s.image i).otherSlots k).any (·.parityBad) || ((s.image i).otherSlots k).any (·.overlaps g) then
      (s.raiseIf (((s.image i).otherSlots k).any (·.parityBad)) .image).refused .overlap
    else
      ((s.raiseIf (((s.image i).otherSlots k).any (·.parityBad)) .image).setImage i
        { (s.raiseIf (((s.image i).otherSlots k).any (·.parityBad)) .image).image i with
          slots := ((s.raiseIf (((s.image i).otherSlots k).any (·.parityBad)) .image).image i).slots.set k
            ⟨some g, false⟩ }).done (be 4 g.checkCount) := by
  unfold State.loadRegion
  rw [below_val slot]
  exact if_neg (by rw [slot]; exact not_le.mpr used)

theorem loadRegion_damaged (bad : ((s.image i).otherSlots k).any (·.parityBad) = true) :
    State.loadRegion i n g s = (s.raiseFault .image).refused .overlap := by
  rw [loadRegion_slot slot used, bad]
  rfl

variable (sound : ((s.image i).otherSlots k).any (·.parityBad) = false)
include sound

theorem loadRegion_overlap (met : ((s.image i).otherSlots k).any (·.overlaps g) = true) :
    State.loadRegion i n g s = s.refused .overlap := by
  rw [loadRegion_slot slot used, sound, met]
  rfl

theorem loadRegion_apart (apart : ((s.image i).otherSlots k).any (·.overlaps g) = false) :
    State.loadRegion i n g s =
      (s.setImage i { s.image i with slots := (s.image i).slots.set k ⟨some g, false⟩ }).done (be 4 g.checkCount) := by
  rw [loadRegion_slot slot used, sound, apart]
  rfl

end

/-! ## IMAGE CHECKS (R27, R30) -/

/-- What a read finds after values are written in a row inside the memory (R27). -/
theorem read_writeAll {m : CheckMem} (canonical : m.wf = true) {k : Nat} {l : List Word}
    (inside : k + l.length ≤ 4096) (j : Nat) : (m.writeAll k l).read j =
      if j < k then m.read j else (l[j - k]?.map fun v => CheckEntry.mk v false).getD (m.read j) := by
  induction l generalizing m k with
  | nil => simp [CheckMem.writeAll]
  | cons v rest ih =>
    rw [List.length_cons] at inside
    have size : k < checkListSize := lt_of_lt_of_le (by omega) (show 4096 ≤ checkListSize from le_rfl)
    rw [CheckMem.writeAll, ih (CheckMem.write_wf canonical k _) (by omega), CheckMem.read_write canonical size]
    obtain before | rfl | after := Nat.lt_trichotomy j k
    · rw [if_pos (by omega), if_neg (by omega), if_pos before]
    · rw [if_pos (Nat.lt_succ_self j), if_pos rfl, if_neg (Nat.lt_irrefl j), Nat.sub_self]
      rfl
    · rw [if_neg (by omega), if_neg (by omega), if_neg (by omega), show j - k = (j - (k + 1)) + 1 by omega]
      rfl

theorem markWritten_getElem? (marks : List Bool) (start n j : Nat) :
    (markWritten marks start n)[j]? = marks[j]?.map fun m => m || decide (start ≤ j ∧ j < start + n) := by
  unfold markWritten
  rw [List.getElem?_map, List.getElem?_zipIdx, Option.map_map]
  refine congrArg (fun f => Option.map f marks[j]?) (funext fun m => ?_)
  simp

section
variable {p : List Byte} {s : State} {i : ImageId}

theorem checkValues_length (p : List Byte) (n : Nat) : (checkValues p n).length = n := by
  unfold checkValues
  rw [List.length_map, List.length_range]

theorem checkValues_getElem? (p : List Byte) {n k : Nat} (below : k < n) :
    (checkValues p n)[k]? = some (BitVec.ofNat 32 (fieldAt p (4 + 4 * k) 4)) := by
  unfold checkValues
  rw [List.getElem?_map, List.getElem?_range below]
  rfl

theorem carryImageChecks_bad (h : 15 < fieldAt p 0 1 ∨ fieldAt p 3 1 = 0 ∨ 13 < fieldAt p 3 1) :
    State.carryImageChecks p s = s.refused .badValue := by
  unfold State.carryImageChecks
  dsimp only
  obtain past | illegal := h
  · rw [below_none past]
  · cases below 16 (fieldAt p 0 1) with
    | none => rfl
    | some i => exact if_pos illegal

theorem carryImageChecks_legal (number : fieldAt p 0 1 = i.val) (some_ : 1 ≤ fieldAt p 3 1) (few : fieldAt p 3 1 ≤ 13) :
    State.carryImageChecks p s =
      s.loadRequest i .loading (State.loadChecks i (fieldAt p 1 2) (checkValues p (fieldAt p 3 1))) := by
  have legal : ¬ (fieldAt p 3 1 = 0 ∨ maxChecks < fieldAt p 3 1) := by
    have most : maxChecks = 13 := rfl
    omega
  unfold State.carryImageChecks
  dsimp only
  rw [below_val number]
  exact if_neg legal

variable {start : Nat} {values : List Word} {x : Extent} (extent : (s.image i).extent = some x)
include extent

theorem loadChecks_past (past : x.count < start + values.length) :
    State.loadChecks i start values s = s.refused .badValue := by
  unfold State.loadChecks
  dsimp only
  rw [extent]
  exact if_pos past

theorem loadChecks_inside {marks : List Bool} (written : (s.image i).written = some marks)
    (inside : start + values.length ≤ x.count) : State.loadChecks i start values s =
      (({ s with checkList := s.checkList.writeAll (x.first + start) values } : State).setImage i
        { s.image i with written := some (markWritten marks start values.length) }).done
          (be 2 ((markWritten marks start values.length).countP id)) := by
  unfold State.loadChecks
  dsimp only
  rw [extent, written]
  exact if_neg (not_lt.mpr inside)

end

/-- Settles O50, by the regions that meet the loaded one, and the reads of the check list after the writes. -/
theorem regionsAndChecksLoaded : Obligations.RegionsAndChecksLoaded := by
  unfold Obligations.RegionsAndChecksLoaded
  refine ⟨fun s t frame rest asked => ?region, fun s t frame rest asked => ?checks⟩
  case region =>
    intro p u
    have answers {v : State} {a : Answer} (carried : State.carryImageRegion p u = (v, a)) (offers : v.offers = s.offers) :=
      exec_asked (exec_imageRegion s t asked.running) asked carried offers
    refine ⟨fun bad => answers (carryImageRegion_bad bad) rfl, fun i g number spelled bad => ?damaged,
      fun i g number spelled sound => ?sound⟩
    case damaged =>
      exact answers ((carryImageRegion_spelled number spelled).trans (loadRequest_damaged (s := u) bad))
        (u.raiseFault_offers .image)
    case sound =>
      intro r meets
      have loads := carryImageRegion_spelled (s := u) number spelled
      have taken (free : r.refCount = 0) (loading : r.state = .loading) :=
        loads.trans (loadRequest_taken (s := u) sound free loading)
      refine ⟨fun named => answers (loads.trans (loadRequest_referenced (s := u) sound named)) rfl,
        fun free other => answers (loads.trans (loadRequest_order (s := u) sound free other)) rfl,
        fun free loading past => answers ((taken free loading).trans (loadRegion_past (s := u) past)) rfl,
        fun k free loading slot used => ?_⟩
      intro damaged
      have bad_iff := otherSlots_bad_iff (k := k) r
      have meets_iff := otherSlots_overlap_iff (k := k) r g
      refine ⟨fun bad => ?bad, fun good met => ?met, fun good apart => ?apart⟩
      case bad =>
        exact answers ((taken free loading).trans (loadRegion_damaged (s := u) slot used (bad_iff.mpr bad)))
          (u.raiseFault_offers .image)
      case met =>
        exact answers ((taken free loading).trans (loadRegion_overlap (s := u) slot used
          (Bool.eq_false_of_not_eq_true fun bad => good (bad_iff.mp bad)) (meets_iff.mpr met))) rfl
      case apart =>
        refine answers ((taken free loading).trans (loadRegion_apart (s := u) slot used
          (Bool.eq_false_of_not_eq_true fun bad => good (bad_iff.mp bad))
          (Bool.eq_false_of_not_eq_true fun met => ?_))) rfl
        obtain ⟨j, meeting⟩ := meets_iff.mp met
        exact apart j meeting
  case checks =>
    intro p u start n
    have answers {v : State} {a : Answer} (carried : State.carryImageChecks p u = (v, a)) (offers : v.offers = s.offers) :=
      exec_asked (exec_imageChecks s t asked.running) asked carried offers
    refine ⟨fun bad => answers (carryImageChecks_bad bad) rfl, fun i number some_ few bad => ?damaged,
      fun i number some_ few sound => ?sound⟩
    case damaged =>
      exact answers ((carryImageChecks_legal number some_ few).trans (loadRequest_damaged (s := u) bad))
        (u.raiseFault_offers .image)
    case sound =>
      intro r
      have loads := carryImageChecks_legal (s := u) number some_ few
      have size : (checkValues p n).length = n := checkValues_length p n
      refine ⟨fun named => answers (loads.trans (loadRequest_referenced (s := u) sound named)) rfl,
        fun free other => answers (loads.trans (loadRequest_order (s := u) sound free other)) rfl,
        fun x marks free loading extent written => ⟨fun past => ?past, fun inside fits canonical => ?inside⟩⟩
      all_goals have taken := loads.trans (loadRequest_taken (s := u) sound free loading)
      case past =>
        exact answers (taken.trans (loadChecks_past (s := u) extent (by rw [size]; exact past))) rfl
      case inside =>
        have done := taken.trans (loadChecks_inside (s := u) extent written (by rw [size]; exact inside))
        rw [size] at done
        have reads (j : Nat) := read_writeAll canonical (k := x.first + start) (l := checkValues p n)
          (by rw [size]; omega) j
        refine ⟨_, _, answers done rfl, fun k below => ?value, fun j outside => ?elsewhere, markWritten_getElem? marks start n⟩
        case value =>
          rw [reads, if_neg (by omega), Nat.add_sub_cancel_left, checkValues_getElem? p below]
          rfl
        case elsewhere =>
          obtain before | after := outside
          · rw [reads, if_pos before]
          · rw [reads, if_neg (by omega), List.getElem?_eq_none (by rw [size]; omega)]
            rfl

end Sys2Proof.Proofs
end

section
/-! IMAGE END (C2): what a complete image is, and the self-check it starts: O51 (R31, R37). -/

namespace Sys2Proof.Proofs
open Sys2Proof.Machine

section
variable {p : List Byte} {s : State} {i : ImageId}

theorem carryImageEnd_bad (h : 15 < fieldAt p 0 1 ∨ 7 < fieldAt p 5 1) :
    State.carryImageEnd p s = s.refused .badValue := by
  unfold State.carryImageEnd
  obtain past | level := h
  · rw [below_none past]
  · cases below 16 (fieldAt p 0 1) with
    | none => rfl
    | some i => exact if_pos level

theorem carryImageEnd_legal (number : fieldAt p 0 1 = i.val) (level : fieldAt p 5 1 ≤ 7) :
    State.carryImageEnd p s =
      s.loadRequest i .loading (State.endImage i (BitVec.ofNat 32 (fieldAt p 1 4)) (fieldAt p 5 1)) := by
  unfold State.carryImageEnd
  rw [below_val number]
  exact if_neg (not_lt.mpr level)

/-- A complete image: every slot in use is loaded and sound, the extent has as many entries as their blocks, and all of them are
written (R31). -/
theorem imageComplete_iff (r : ImageRecord) : r.complete = true ↔ (∀ x ∈ r.usedSlots, x.parityBad = false)
    ∧ (∀ x ∈ r.usedSlots, x.region.isSome = true) ∧ (r.usedSlots.map Slot.checkCount).sum = r.extent.elim 0 Extent.count
    ∧ ∀ m ∈ r.written.getD [], m = true := by
  have extent : (r.extent.getD ⟨0, 0⟩).count = r.extent.elim 0 Extent.count := by cases r.extent <;> rfl
  unfold ImageRecord.complete
  simp only [Bool.and_eq_true, List.all_eq_true, beq_iff_eq, Bool.not_eq_true', extent, id_eq]
  constructor
  · rintro ⟨⟨slots, sum⟩, marks⟩
    exact ⟨fun x mem => (slots x mem).2, fun x mem => (slots x mem).1, sum, marks⟩
  · rintro ⟨sound, loaded, sum, marks⟩
    exact ⟨⟨fun x mem => ⟨loaded x mem, sound x mem⟩, sum⟩, marks⟩

theorem usedSlots_any_bad_iff (r : ImageRecord) :
    r.usedSlots.any (·.parityBad) = true ↔ ∃ x ∈ r.usedSlots, x.parityBad = true := List.any_eq_true

variable {expected : Word} {level : Nat}

theorem endImage_damaged (bad : ∃ x ∈ (s.image i).usedSlots, x.parityBad = true) :
    State.endImage i expected level s = (s.raiseFault .image).refused .incomplete := by
  have incomplete : ¬ (s.image i).complete = true := fun complete => by
    obtain ⟨x, mem, damaged⟩ := bad
    rw [((imageComplete_iff _).mp complete).1 x mem] at damaged
    cases damaged
  unfold State.endImage
  dsimp only
  rw [(usedSlots_any_bad_iff _).mpr bad]
  exact if_neg incomplete

variable (sound : ∀ x ∈ (s.image i).usedSlots, x.parityBad = false)
include sound

theorem endImage_sound : State.endImage i expected level s =
    if (s.image i).complete then
      ((s.setImage i ((s.image i).ended expected level)).wakeEngine (.image i)).done []
    else s.refused .incomplete := by
  have good : (s.image i).usedSlots.any (·.parityBad) = false := by
    rw [List.any_eq_false]
    exact fun x mem => Bool.eq_false_iff.mp (sound x mem)
  unfold State.endImage
  dsimp only
  rw [good]
  rfl

end

/-- Settles O51, by what IMAGE END finds of the image and whether it is complete. -/
theorem imageEndStartsTheSelfCheck : Obligations.ImageEndStartsTheSelfCheck := by
  unfold Obligations.ImageEndStartsTheSelfCheck
  intro s t frame rest asked p u
  have answers {v : State} {a : Answer} (carried : State.carryImageEnd p u = (v, a)) (offers : v.offers = s.offers) :=
    exec_asked (exec_imageEnd s t asked.running) asked carried offers
  refine ⟨fun bad => answers (carryImageEnd_bad bad) rfl, fun i number level bad => ?damaged,
    fun i number level sound => ?sound⟩
  case damaged =>
    exact answers ((carryImageEnd_legal number level).trans (loadRequest_damaged (s := u) bad)) (u.raiseFault_offers .image)
  case sound =>
    intro r used checks complete
    have loads := carryImageEnd_legal (s := u) number level
    have taken (free : r.refCount = 0) (loading : r.state = .loading) :=
      loads.trans (loadRequest_taken (s := u) sound free loading)
    have counts : checks = Slot.checkCount := by
      funext y
      obtain ⟨region, bad⟩ := y
      cases region <;> rfl
    have completes (whole : ∀ x ∈ used, x.parityBad = false) : r.complete = true ↔ complete := by
      rw [imageComplete_iff, ← counts]
      exact and_iff_right whole
    refine ⟨fun named => answers (loads.trans (loadRequest_referenced (s := u) sound named)) rfl,
      fun free other => answers (loads.trans (loadRequest_order (s := u) sound free other)) rfl,
      fun free loading bad => ?bad, fun free loading whole lacking => ?incomplete,
      fun free loading whole ready => ?complete⟩
    case bad =>
      exact answers ((taken free loading).trans (endImage_damaged (s := u) bad)) (u.raiseFault_offers .image)
    case incomplete =>
      exact answers ((taken free loading).trans ((endImage_sound (s := u) whole).trans
        (if_neg fun done => lacking ((completes whole).mp done)))) rfl
    case complete =>
      exact answers ((taken free loading).trans ((endImage_sound (s := u) whole).trans
        (if_pos ((completes whole).mpr ready)))) (State.wakeEngine_offers _ _)

end Sys2Proof.Proofs
end

section
/-! The write window (C6): WINDOW OPEN, WINDOW RENEW and WINDOW CLOSE: O52 (R69, R115 to R119). -/

namespace Sys2Proof.Proofs
open Sys2Proof.Machine

/-! ## The trackers cleared (R69) -/

section
variable (s : State)

theorem clearTrackers_targets : s.clearTrackers = { s with targets := s.clearTrackers.targets } := by
  have rest : ({ s.clearTrackers with targets := s.targets } : State) = s :=
    foldl_view (fun u : State => ({ u with targets := s.targets } : State)) State.clearTrackerOf
      (fun u f => by
        unfold State.clearTrackerOf
        split
        · rfl
        · split <;> rfl) allFlows s
  generalize s.clearTrackers = cleared at rest ⊢
  exact congrArg (fun w => ({ w with targets := cleared.targets } : State)) rest

theorem clearTrackers_target (n : TargetId) : s.clearTrackers.target n =
    { s.target n with
      tracker :=
        if ∃ f, (s.flow f).state ≠ .free ∧ (s.flow f).target = some n then .none else (s.target n).tracker } := by
  have rest : ({ s.clearTrackers.target n with tracker := .none } : TargetEntry) = { s.target n with tracker := .none } :=
    foldl_view (fun u : State => ({ u.target n with tracker := .none } : TargetEntry)) State.clearTrackerOf
      (fun u f => by
        unfold State.clearTrackerOf
        split
        · rfl
        · split
          · rw [State.target_setTracker]
            split
            · next same => rw [same]
            · rfl
          · rfl) allFlows s
  have tracker : (s.clearTrackers.target n).tracker =
      if ∃ f, (s.flow f).state ≠ .free ∧ (s.flow f).target = some n then .none else (s.target n).tracker := by
    unfold State.clearTrackers
    rw [clearTrackers_tracker]
    simp only [mem_allFlows, true_and]
  rw [← tracker]
  generalize s.clearTrackers.target n = cleared at rest ⊢
  exact congrArg (fun e => ({ e with tracker := cleared.tracker } : TargetEntry)) rest

end

/-- An open window with its trackers not yet cleared (R116). -/
def windowOpened (s : State) (period : Nat) : State :=
  { s with window := ⟨.opened, some period, some (s.now + ms period), .none⟩ }

theorem openWindow_eq (s : State) (period : Nat) : s.openWindow period =
    { windowOpened s period with targets := (windowOpened s period).clearTrackers.targets } :=
  clearTrackers_targets (windowOpened s period)

/-! ## The requests (R116, R117, R119) -/

section
variable {p : List Byte} {s : State}

theorem carryWindowOpen_bad (bad : fieldAt p 0 2 = 0 ∨ 600 < fieldAt p 0 2) :
    State.carryWindowOpen p s = s.refused .badValue := if_pos bad

variable (low : 1 ≤ fieldAt p 0 2) (high : fieldAt p 0 2 ≤ 600)
include low high

theorem carryWindowOpen_order (h : s.mode = .passthrough ∨ s.window.state = .opened) :
    State.carryWindowOpen p s = s.refused .order := by
  unfold State.carryWindowOpen
  dsimp only
  rw [if_neg (by omega)]
  obtain passing | opened := h
  · rw [if_pos passing]
  · rw [if_pos opened, ite_id]

theorem carryWindowOpen_opens (routing : s.mode = .routing) (closed : s.window.state = .closed) :
    State.carryWindowOpen p s = (s.openWindow (100 * fieldAt p 0 2)).done [] := by
  unfold State.carryWindowOpen
  dsimp only
  rw [if_neg (by omega), if_neg (by rw [routing]; decide), if_neg (by rw [closed]; decide)]

end

section
variable {p : List Byte} {s : State}

theorem carryWindowRenew_bad (notFirst : fieldAt p 0 1 ≠ 1) (notSecond : fieldAt p 0 1 ≠ 2) :
    State.carryWindowRenew p s = s.refused .badValue := if_pos ⟨notFirst, notSecond⟩

theorem carryWindowRenew_closed (step : fieldAt p 0 1 = 1 ∨ fieldAt p 0 1 = 2) (closed : s.window.state = .closed) :
    State.carryWindowRenew p s = s.refused .order := by
  unfold State.carryWindowRenew
  dsimp only
  rw [if_neg (by omega), if_pos closed]

variable (opened : s.window.state = .opened)
include opened

theorem carryWindowRenew_first (first : fieldAt p 0 1 = 1) :
    State.carryWindowRenew p s = (s.setRenewal .armed).done (b1 RenewalStep.armed.code) := by
  unfold State.carryWindowRenew
  dsimp only
  rw [if_neg (by omega), if_neg (by rw [opened]; decide), if_pos first]

variable (second : fieldAt p 0 1 = 2)
include second

theorem carryWindowRenew_second : State.carryWindowRenew p s =
    if s.window.renewal = .none then s.refused .order else s.renew.done (b1 RenewalStep.none.code) := by
  unfold State.carryWindowRenew
  dsimp only
  rw [if_neg (by omega), if_neg (by rw [opened]; decide), if_neg (by omega)]

end

theorem carryWindowClose_closed {p : List Byte} {s : State} (closed : s.window.state = .closed) :
    State.carryWindowClose p s = s.refused .order := if_pos closed

theorem carryWindowClose_opened {p : List Byte} {s : State} (opened : s.window.state = .opened) :
    State.carryWindowClose p s = (s.closeWindow .closed).done (b1 s.flowsAtWork) :=
  if_neg (by rw [opened]; decide)

/-- Settles O52, by the mode and the state of the window each request finds. -/
theorem windowOpensRenewsAndCloses : Obligations.WindowOpensRenewsAndCloses := by
  unfold Obligations.WindowOpensRenewsAndCloses
  intro s t frame rest p u period stepByte
  refine ⟨fun asked => ⟨fun bad => ?bad, fun low high h => ?order, fun low high routing closed => ?opens⟩,
    fun asked => ⟨fun notFirst notSecond => ?renewBad, fun step closed => ?renewClosed, fun second opened fresh => ?fresh,
      fun first opened => ?first, fun period second opened armed length => ?second⟩,
    fun asked => ⟨fun closed => ?closed, fun opened => ?opened⟩⟩
  case bad => exact exec_asked (exec_windowOpen s t asked.running) asked (carryWindowOpen_bad bad) rfl
  case order =>
    exact exec_asked (exec_windowOpen s t asked.running) asked (carryWindowOpen_order (s := u) low high h) rfl
  case opens =>
    have time : ms (100 * period) = 100000 * period := (Nat.mul_assoc 1000 100 period).symm
    have carried := (carryWindowOpen_opens (s := u) low high routing closed).trans
      (congrArg (State.done · []) (openWindow_eq u (100 * period)))
    rw [windowOpened, time] at carried
    exact ⟨_, exec_asked (exec_windowOpen s t asked.running) asked carried rfl, clearTrackers_target _⟩
  case renewBad =>
    exact exec_asked (exec_windowRenew s t asked.running) asked (carryWindowRenew_bad notFirst notSecond) rfl
  case renewClosed =>
    exact exec_asked (exec_windowRenew s t asked.running) asked (carryWindowRenew_closed (s := u) step closed) rfl
  case fresh =>
    exact exec_asked (exec_windowRenew s t asked.running) asked
      ((carryWindowRenew_second (s := u) opened second).trans (if_pos fresh)) rfl
  case first =>
    exact exec_asked (exec_windowRenew s t asked.running) asked (carryWindowRenew_first (s := u) opened first) rfl
  case second =>
    have renewed : u.renew = { u with window := { s.window with
        expiry := some (max s.now t + 1000 * period), renewal := .none } } := by
      show ({ u with window := { s.window with
        expiry := some (max s.now t + ms (s.window.period.getD 0)), renewal := .none } } : State) = _
      rw [length]
      rfl
    have carried := (carryWindowRenew_second (s := u) opened second).trans
      (if_neg fun none => by rw [show u.window.renewal = .armed from armed] at none; cases none)
    rw [renewed] at carried
    exact exec_asked (exec_windowRenew s t asked.running) asked carried rfl
  case closed =>
    exact exec_asked (exec_windowClose s t asked.running) asked (carryWindowClose_closed (s := u) closed) rfl
  case opened =>
    have closes := exec_asked (exec_windowClose s t asked.running) asked (carryWindowClose_opened (s := u) opened)
      (u.closeWindow_offers .closed)
    rw [done_bytes] at closes
    exact closes

end Sys2Proof.Proofs
end

section
/-! The requests about flows (C3): FLOW BIND, FLOW RELEASE, FLOW HOLD and FLOW RESUME: O53 and O54 (R41 to R43, R60 to R62). -/

namespace Sys2Proof.Proofs
open Sys2Proof.Machine

/-! ## Parameters that spell a flow's parameters (R41) -/

section
variable {p : List Byte}

/-- A parameter is its default where its bit is set, and else what its byte codes. -/
theorem boundParam_iff {bit default x : Nat} {inRange : Nat → Bool} {value : Nat → Nat} {coded : Nat → Prop}
    (codes : ∀ v, coded v ↔ inRange v = true ∧ x = value v) :
    boundParam (byteAt p 3) (byteAt p (4 + bit)) bit inRange value default = some x ↔ BoundParam p bit x default coded := by
  unfold boundParam BoundParam
  rw [fieldAt_one, codes]
  split
  · exact ⟨fun made => (Option.some.inj made).symm, fun same => congrArg some same.symm⟩
  · split
    · next range => exact ⟨fun made => ⟨range, (Option.some.inj made).symm⟩, fun both => congrArg some both.2.symm⟩
    · next range => exact iff_of_false nofun fun both => range both.1

theorem paramsFrom_iff {q : FlowParams} : paramsFrom p = some q ↔ SpellsParams p q := by
  have level (x : Nat) : boundParam (byteAt p 3) (byteAt p 4) 0 (· ≤ 7) id 3 = some x ↔
      BoundParam p 0 x 3 fun v => v ≤ 7 ∧ x = v := boundParam_iff (bit := 0) fun v => by simp
  have retry (x : Nat) : boundParam (byteAt p 3) (byteAt p 5) 1 (· ≤ 15) (fun v => if v = 0 then 16 else v) 4 = some x ↔
      BoundParam p 1 x 4 fun v => v ≤ 15 ∧ x = if v = 0 then 16 else v := boundParam_iff (bit := 1) fun v => by simp
  have progress (x : Nat) : boundParam (byteAt p 3) (byteAt p 6) 2 (fun _ => true) id 0 = some x ↔
      BoundParam p 2 x 0 fun v => x = v := boundParam_iff (bit := 2) fun v => (and_iff_right rfl).symm
  have response (x : Nat) : boundParam (byteAt p 3) (byteAt p 7) 3 (· != 0) (10 * ·) 200 = some x ↔
      BoundParam p 3 x 200 fun v => v ≠ 0 ∧ x = 10 * v := boundParam_iff (bit := 3) fun v => by rw [bne_iff_ne]
  have wait (x : Nat) : boundParam (byteAt p 3) (byteAt p 8) 4 (· != 0) (100 * ·) 5000 = some x ↔
      BoundParam p 4 x 5000 fun v => v ≠ 0 ∧ x = 100 * v := boundParam_iff (bit := 4) fun v => by rw [bne_iff_ne]
  have gap (x : Nat) : boundParam (byteAt p 3) (byteAt p 9) 5 (· != 0) (10 * ·) 1000 = some x ↔
      BoundParam p 5 x 1000 fun v => v ≠ 0 ∧ x = 10 * v := boundParam_iff (bit := 5) fun v => by rw [bne_iff_ne]
  have quota (x : Nat) : boundParam (byteAt p 3) (byteAt p 10) 6 (fun v => 8 ≤ v && v ≤ 128) id 48 = some x ↔
      BoundParam p 6 x 48 fun v => 8 ≤ v ∧ v ≤ 128 ∧ x = v :=
    boundParam_iff (bit := 6) fun v => by rw [Bool.and_eq_true, decide_eq_true_iff, decide_eq_true_iff, and_assoc, id]
  unfold paramsFrom
  dsimp only
  constructor
  · intro made
    split at made
    · next first second third fourth fifth sixth seventh =>
      cases made
      exact ⟨(level _).mp first, (retry _).mp second, (progress _).mp third, (response _).mp fourth, (wait _).mp fifth,
        (gap _).mp sixth, (quota _).mp seventh⟩
    · cases made
  · rintro ⟨first, second, third, fourth, fifth, sixth, seventh⟩
    rw [(level _).mpr first, (retry _).mpr second, (progress _).mpr third, (response _).mpr fourth, (wait _).mpr fifth,
      (gap _).mpr sixth, (quota _).mpr seventh]

end

/-! ## FLOW BIND (R42) -/

section
variable {p : List Byte} {s : State} {f : FlowId}

theorem carryFlowBind_past (past : 15 < fieldAt p 0 1) : State.carryFlowBind p s = s.refused .badValue := by
  unfold State.carryFlowBind
  rw [below_none past]

variable (number : fieldAt p 0 1 = f.val)
include number

theorem carryFlowBind_order (h : s.window.state = .closed ∨ (s.flow f).state ≠ .free) :
    State.carryFlowBind p s = s.refused .order := by
  unfold State.carryFlowBind
  rw [below_val number]
  exact if_pos h

variable (opened : s.window.state = .opened) (free : (s.flow f).state = .free)
include opened free

theorem carryFlowBind_bad (h : 31 < fieldAt p 1 1 ∨ 15 < fieldAt p 2 1 ∨ ∀ q, ¬ SpellsParams p q) :
    State.carryFlowBind p s = s.refused .badValue := by
  unfold State.carryFlowBind
  rw [below_val number]
  dsimp only
  rw [if_neg (by rw [opened, free]; decide)]
  split
  · next n i q first second third =>
    obtain past | past | none := h
    · rw [below_none past] at first
      cases first
    · rw [below_none past] at second
      cases second
    · exact (none q (paramsFrom_iff.mp third)).elim
  · rfl

theorem carryFlowBind_checked {n : TargetId} {i : ImageId} {q : FlowParams} (target : fieldAt p 1 1 = n.val)
    (image : fieldAt p 2 1 = i.val) (spelled : SpellsParams p q) :
    State.carryFlowBind p s = s.bindChecked f n i q := by
  unfold State.carryFlowBind
  rw [below_val number]
  dsimp only
  rw [if_neg (by rw [opened, free]; decide), below_val target, below_val image, paramsFrom_iff.mpr spelled]

end

section
variable {s : State} {f : FlowId} {n : TargetId} {i : ImageId} {q : FlowParams}

theorem bindChecked_targetFault (valid : (s.target n).state = .valid) (bad : (s.target n).parityBad = true) :
    s.bindChecked f n i q = (s.raiseFault .target).refused .busy := if_pos ⟨valid, bad⟩

theorem bindChecked_busy (h : (s.target n).state ≠ .valid
      ∨ (s.target n).parityBad = false ∧ (s.boundFlow n).isSome = true) : s.bindChecked f n i q = s.refused .busy := by
  unfold State.bindChecked
  dsimp only
  obtain empty | ⟨sound, bound⟩ := h
  · rw [if_neg fun both => empty both.1, if_pos (Or.inl empty)]
  · rw [if_neg (by rw [sound]; exact fun both => Bool.false_ne_true both.2), if_pos (Or.inr bound)]

variable (sound : Sound s n) (free : s.boundFlow n = none)
include sound free

theorem bindChecked_image : s.bindChecked f n i q =
    if (s.image i).bad.contains .state || (s.image i).bad.contains .regionCount then
      (s.raiseFault .image).refused .order
    else if (s.image i).state ≠ .ready then s.refused .order
    else (s.bind f n i q).done [] := by
  obtain ⟨valid, good⟩ := sound
  unfold State.bindChecked
  dsimp only
  rw [if_neg (by rw [good]; exact fun both => Bool.false_ne_true both.2),
    if_neg (by rw [valid, free]; decide)]

end

theorem bindImageBad_iff (r : ImageRecord) : (r.bad.contains .state || r.bad.contains .regionCount) = true ↔
    ImageField.state ∈ r.bad ∨ ImageField.regionCount ∈ r.bad := by
  rw [Bool.or_eq_true, List.contains_iff_mem, List.contains_iff_mem]

/-! ## FLOW RELEASE (R43) -/

section
variable (s : State) (f : FlowId)

/-- A flow's work given up before its release: its cells, its slice, its place at the gate and its alert (R43). -/
def workGivenUp : State := (((s.freeFlowCells f).abandonFlowSlice f).withdrawGate f).removeAlert (.flow f)

theorem workGivenUp_flows (c : FlowCtx) : (workGivenUp s f).flows.set f c = s.flows.set f c := by
  show ((s.freeFlowCells f).abandonFlowSlice f).flows.set f c = s.flows.set f c
  rw [State.abandonFlowSlice_eq, State.freeFlowCells_eq]
  exact Vector.set_set ..

theorem workGivenUp_images : (workGivenUp s f).images = s.images := by
  show ((s.freeFlowCells f).abandonFlowSlice f).images = s.images
  rw [State.abandonFlowSlice_eq, State.freeFlowCells_eq]

theorem workGivenUp_targets : (workGivenUp s f).targets = s.targets := by
  show ((s.freeFlowCells f).abandonFlowSlice f).targets = s.targets
  rw [State.abandonFlowSlice_targets, State.freeFlowCells_targets]

theorem unbind_setFlow (b : Binding) (c : FlowCtx) : (s.unbind b).setFlow f c =
    { s with
      flows := s.flows.set f c
      images := s.images.set b.image { s.image b.image with refCount := (s.image b.image).refCount - 1 }
      targets := s.targets.set b.target { s.target b.target with tracker := .none } } := rfl

theorem releaseFlow_bound {b : Binding} (bound : (s.flow f).binding = some b) : s.releaseFlow f =
    { workGivenUp s f with
      flows := s.flows.set f FlowCtx.reset
      images := s.images.set b.image { s.image b.image with refCount := (s.image b.image).refCount - 1 }
      targets := s.targets.set b.target { s.target b.target with tracker := .none } } := by
  have released : s.releaseFlow f = ((workGivenUp s f).unbind b).setFlow f FlowCtx.reset := by
    unfold State.releaseFlow
    rw [bound]
    rfl
  rw [released, unbind_setFlow, workGivenUp_flows, State.image, workGivenUp_images, State.target, workGivenUp_targets]
  rfl

end

section
variable {p : List Byte} {s : State} {f : FlowId}

theorem carryFlowRelease_past (past : 15 < fieldAt p 0 1) : State.carryFlowRelease p s = s.refused .badValue := by
  unfold State.carryFlowRelease
  rw [below_none past]

theorem carryFlowRelease_flow (number : fieldAt p 0 1 = f.val) : State.carryFlowRelease p s =
    if (s.flow f).state = .free then s.refused .order else (s.releaseFlow f).done (b1 (s.flow f).state.code) := by
  unfold State.carryFlowRelease
  rw [below_val number]

end

/-- Settles O53, by what FLOW BIND finds of the target and the image, and the binding FLOW RELEASE takes back. -/
theorem flowsBoundAndReleased : Obligations.FlowsBoundAndReleased := by
  unfold Obligations.FlowsBoundAndReleased
  refine ⟨fun s t frame rest asked => ?bind, fun s t frame rest asked => ?release⟩
  case bind =>
    intro p u
    have answers {v : State} {a : Answer} (carried : State.carryFlowBind p u = (v, a)) (offers : v.offers = s.offers) :=
      exec_asked (exec_flowBind s t asked.running) asked carried offers
    refine ⟨fun past => answers (carryFlowBind_past past) rfl, fun f number =>
      ⟨fun h => answers (carryFlowBind_order (s := u) number h) rfl,
        fun opened free bad => answers (carryFlowBind_bad (s := u) number opened free bad) rfl,
        fun n i q opened free target image spelled => ?_⟩⟩
    intro badImage
    have checked := carryFlowBind_checked (s := u) number opened free target image spelled
    have unbound (h : Unbound s n) : u.boundFlow n = none := (boundFlow_none u).mpr h
    have damaged_iff := bindImageBad_iff (s.image i)
    refine ⟨fun valid bad => ?targetFault, fun h => ?busy, fun sound none bad => ?imageFault,
      fun sound none good other => ?order, fun sound none good ready => ?bound⟩
    case targetFault =>
      exact answers (checked.trans (bindChecked_targetFault (s := u) valid bad)) (u.raiseFault_offers .target)
    case busy =>
      refine answers (checked.trans (bindChecked_busy (s := u) ?_)) rfl
      obtain empty | ⟨sound, g, bound⟩ := h
      · exact Or.inl fun valid => by cases empty.symm.trans valid
      · have named : u.boundFlow n = some g := (boundFlow_congr s rfl n).trans (boundFlow_some s bound)
        exact Or.inr ⟨sound, by rw [named]; rfl⟩
    case imageFault =>
      exact answers (checked.trans ((bindChecked_image (s := u) sound (unbound none)).trans
        (if_pos (damaged_iff.mpr bad)))) (u.raiseFault_offers .image)
    case order =>
      exact answers (checked.trans ((bindChecked_image (s := u) sound (unbound none)).trans
        ((if_neg fun bad => good (damaged_iff.mp bad)).trans (if_pos other)))) rfl
    case bound =>
      exact answers (checked.trans ((bindChecked_image (s := u) sound (unbound none)).trans
        ((if_neg fun bad => good (damaged_iff.mp bad)).trans (if_neg (not_not_intro ready))))) rfl
  case release =>
    intro number u
    have answers {v : State} {a : Answer} (carried : State.carryFlowRelease (params frame) u = (v, a))
        (offers : v.offers = s.offers) := exec_asked (exec_flowRelease s t asked.running) asked carried offers
    refine ⟨fun past => answers (carryFlowRelease_past past) rfl, fun f same =>
      ⟨fun free => answers ((carryFlowRelease_flow (s := u) same).trans (if_pos free)) rfl, fun b bound binding => ?_⟩⟩
    intro v
    have released := answers ((carryFlowRelease_flow (s := u) same).trans (if_neg bound)) (u.releaseFlow_offers f)
    rw [releaseFlow_bound u f binding, done_bytes] at released
    exact released

/-! ## FLOW HOLD and FLOW RESUME (R60 to R62) -/

section
variable {p : List Byte} {s : State} {f : FlowId}

theorem atWork_iff (k : FlowState) : k.atWork = true ↔ k ≠ .free ∧ k ≠ .done ∧ k ≠ .failed := by
  cases k <;> decide

theorem atWork_eq_false_iff (k : FlowState) : k.atWork = false ↔ k = .free ∨ k = .done ∨ k = .failed := by
  cases k <;> decide

theorem carryFlowHold_past (past : 15 < fieldAt p 0 1) : State.carryFlowHold p s = s.refused .badValue := by
  unfold State.carryFlowHold
  rw [below_none past]

theorem carryFlowHold_flow (number : fieldAt p 0 1 = f.val) : State.carryFlowHold p s =
    if (s.flow f).state.atWork then s.setMaster f true else s.refused .order := by
  unfold State.carryFlowHold
  rw [below_val number]

theorem carryFlowResume_past (past : 15 < fieldAt p 0 1) : State.carryFlowResume p s = s.refused .badValue := by
  unfold State.carryFlowResume
  rw [below_none past]

theorem carryFlowResume_flow (number : fieldAt p 0 1 = f.val) : State.carryFlowResume p s =
    if (s.flow f).state.atWork then s.setMaster f false else s.refused .order := by
  unfold State.carryFlowResume
  rw [below_val number]

theorem setMaster_eq (s : State) (f : FlowId) (v : Bool) : s.setMaster f v =
    (s.setFlow f { s.flow f with holds := ⟨v, (s.flow f).holds.supply⟩ }).done
      [BitVec.ofNat 8 (v.toNat + 2 * (s.flow f).holds.supply.toNat)] := by
  unfold State.setMaster
  dsimp only
  rw [holdsByte_eq, b1_eq]
  rfl

end

theorem heldByte_eq (supply : Bool) :
    [BitVec.ofNat 8 (true.toNat + 2 * supply.toNat)] = [if supply then 0x03 else 0x01] := by
  cases supply <;> rfl

theorem resumedByte_eq (supply : Bool) :
    [BitVec.ofNat 8 (false.toNat + 2 * supply.toNat)] = [if supply then 0x02 else 0x00] := by
  cases supply <;> rfl

/-- Settles O54, by the state of the flow. -/
theorem holdAndResume : Obligations.HoldAndResume := by
  unfold Obligations.HoldAndResume
  intro s t frame rest number u
  refine ⟨fun asked => ⟨fun past => ?holdPast, fun f same => ⟨fun idle => ?holdOrder, fun bound undone sound => ?hold⟩⟩,
    fun asked => ⟨fun past => ?resumePast, fun f same => ⟨fun idle => ?resumeOrder, fun bound undone sound => ?resume⟩⟩⟩
  case holdPast => exact exec_asked (exec_flowHold s t asked.running) asked (carryFlowHold_past past) rfl
  case holdOrder =>
    exact exec_asked (exec_flowHold s t asked.running) asked ((carryFlowHold_flow (s := u) same).trans
      (if_neg (Bool.eq_false_iff.mp ((atWork_eq_false_iff _).mpr idle)))) rfl
  case hold =>
    have held := exec_asked (exec_flowHold s t asked.running) asked ((carryFlowHold_flow (s := u) same).trans
      ((if_pos ((atWork_iff _).mpr ⟨bound, undone, sound⟩)).trans (setMaster_eq u f true))) rfl
    exact held.trans (congrArg (fun l => Host.Outcome.next (Answered (u.setFlow f { s.flow f with
      holds := ⟨true, (s.flow f).holds.supply⟩ }) frame (doneBytes l))) (heldByte_eq (s.flow f).holds.supply))
  case resumePast => exact exec_asked (exec_flowResume s t asked.running) asked (carryFlowResume_past past) rfl
  case resumeOrder =>
    exact exec_asked (exec_flowResume s t asked.running) asked ((carryFlowResume_flow (s := u) same).trans
      (if_neg (Bool.eq_false_iff.mp ((atWork_eq_false_iff _).mpr idle)))) rfl
  case resume =>
    have resumed := exec_asked (exec_flowResume s t asked.running) asked ((carryFlowResume_flow (s := u) same).trans
      ((if_pos ((atWork_iff _).mpr ⟨bound, undone, sound⟩)).trans (setMaster_eq u f false))) rfl
    exact resumed.trans (congrArg (fun l => Host.Outcome.next (Answered (u.setFlow f { s.flow f with
      holds := ⟨false, (s.flow f).holds.supply⟩ }) frame (doneBytes l))) (resumedByte_eq (s.flow f).holds.supply))

end Sys2Proof.Proofs
end
